-- ==== Sys2Proof/Word.lean ====
section
/-!
DEFINITION. The widths among the parameters of spec/00_scope.md R8, each named once with the source's value, and the words that
have them (R8, R10): every type of a word and every operation on one is written in these names.
-/

namespace Sys2Proof.Config

/-- Width of a raw value (R8). -/
@[simp] abbrev VALUE_BITS : Nat := 14

/-- Payload bits of a data byte (R8). -/
@[simp] abbrev PAYLOAD_BITS : Nat := 7

/-- Width of `startIndex` and of a router index (R8). -/
@[simp] abbrev INDEX_BITS : Nat := 8

/-- Width of the `count` register (R8). -/
@[simp] abbrev COUNT_BITS : Nat := 8

end Sys2Proof.Config

namespace Sys2Proof

open Sys2Proof.Config

/-- A byte of the input or output stream (R10; its 8 bits are no parameter), and the slot register (R26). -/
abbrev Byte := BitVec 8

/-- A 7-bit group: the payload of a data byte (R10, R55). -/
abbrev Group := BitVec PAYLOAD_BITS

/-- A raw value `UInt14`, the unit of the index address space (R10, R50). -/
abbrev Raw := BitVec VALUE_BITS

/-- What the `startIndex` register holds (R24). -/
abbrev Index := BitVec INDEX_BITS

/-- What the `count` register holds (R25). -/
abbrev Count := BitVec COUNT_BITS

end Sys2Proof
end

