-- ==== Sys2Proof/Config.lean ====
section
/-!
DEFINITION. What an implementation fixes (spec/00_scope.md R8, R9; the widths of R8 stand in Sys2Proof/Word.lean) and the free values of the peripheral environment
(spec/00_scope.md R7, spec/92_eei_decisions.md D15). The default values of the parameters stand in
Sys2Proof/Machine/Params.lean.
-/

namespace Sys2Proof.Config

/-- `0x7F`, the payload bits of a data byte, as a number (R100, R101, R130). -/
@[simp] abbrev payloadMask : Nat := 2 ^ PAYLOAD_BITS - 1

/-- A capability's "float" answer, as an exact rational (R168, 92 D12; log 22). -/
abbrev Reading := Rat

/-- The answer of a capability read: `Ok(x)` or `Fail` (R11, R232, 92 D15). -/
inductive Reply (α : Type) where
  | ok (x : α)
  | fail
deriving DecidableEq, Repr, Inhabited

/-- The numeric parameters of R8, under the spec's names. -/
structure Numbers where
  /-- frame-start byte of SET -/
  SET_MARKER : Byte
  /-- frame-start byte of GET and of the GET response -/
  GET_MARKER : Byte
  /-- largest valid `count`, and the size of the value buffer -/
  MAX_VALUES : Nat
  SERVO_BASE : Nat
  SERVO_COUNT : Nat
  /-- lower servo clamp bound -/
  SERVO_MIN_US : Nat
  /-- upper servo clamp bound -/
  SERVO_MAX_US : Nat
  /-- relay, digital output A0 -/
  RELAY_INDEX : Nat
  /-- digital I/O A1 and A2 -/
  DIO_INDICES : Nat × Nat
  TOUCH_BASE : Nat
  TOUCH_COUNT : Nat
  CURRENT_INDEX : Nat
  VOLTAGE_INDEX : Nat
  RGB_BASE : Nat
  RGB_COUNT : Nat
  /-- raw = round(volts × scale), touch sensors -/
  TOUCH_SCALE : Rat
  /-- raw = round(volts × scale), voltage sensor -/
  VOLT_SCALE : Rat
  /-- amperes per raw step -/
  CURRENT_LSB : Rat
  /-- raw code of zero current -/
  CURRENT_ZERO : Nat
  /-- nibble to 8-bit channel shift -/
  RGB_NIBBLE_SHIFT : Nat
deriving DecidableEq, Repr

/-- All parameters of R8: the numbers, and the three sensor conversions as configuration fields (R168). -/
structure Params extends Numbers where
  convTouch : Reading → Raw
  convVolt : Reading → Raw
  convCurrent : Reading → Raw

/-- The index ranges of R8 as (first index, number of indices), one per row of R52 that reaches a peripheral. -/
def Numbers.ranges (n : Numbers) : List (Nat × Nat) :=
  [(n.SERVO_BASE, n.SERVO_COUNT), (n.RELAY_INDEX, 1), (n.DIO_INDICES.1, 1), (n.DIO_INDICES.2, 1),
   (n.TOUCH_BASE, n.TOUCH_COUNT), (n.CURRENT_INDEX, 1), (n.VOLTAGE_INDEX, 1), (n.RGB_BASE, n.RGB_COUNT)]

/-- `ADDR_COUNT` of R8, derived as R50 says: the smallest N that covers every range. -/
def Numbers.ADDR_COUNT (n : Numbers) : Nat :=
  (n.ranges.map fun r => r.1 + r.2).foldl max 0

/-- Two index ranges have no index in common. -/
abbrev Disjoint (a b : Nat × Nat) : Prop :=
  min (a.1 + a.2) (b.1 + b.2) ≤ max a.1 b.1

/-- The parameter constraints of R9; parameters that break them are outside the spec. -/
abbrev Numbers.Valid (n : Numbers) : Prop :=
  1 ≤ n.MAX_VALUES ∧
  n.SERVO_MIN_US ≤ n.SERVO_MAX_US ∧ n.SERVO_MAX_US < 2 ^ VALUE_BITS ∧
  n.SET_MARKER ≠ n.GET_MARKER ∧ n.SET_MARKER.msb = true ∧ n.GET_MARKER.msb = true ∧
  n.ranges.Pairwise Disjoint ∧
  ∀ r ∈ n.ranges, r.1 + r.2 ≤ 2 ^ INDEX_BITS

/-- Free value: the environment's answer to the n-th read past the servo queue (93 rows 4, 5, 18; log 4). -/
opaque freeServo : Nat → Reply Nat

/-- Free value: the answer to the n-th read past the digital queue (93 rows 4, 5; log 4). -/
opaque freeDigital : Nat → Reply Bool

/-- Free value: the answer to the n-th read past the touch queue (93 rows 4, 5; log 4). -/
opaque freeTouch : Nat → Reply Reading

/-- Free value: the answer to the n-th read past the current queue (93 rows 4, 5; log 4). -/
opaque freeCurrent : Nat → Reply Reading

/-- Free value: the answer to the n-th read past the voltage queue (93 rows 4, 5; log 4). -/
opaque freeVoltage : Nat → Reply Reading

end Sys2Proof.Config
end

