-- ==== Sys2Proof/Machine/Convert.lean ====
section
/-!
DEFINITION. The reference sensor conversions (spec/42_address_router.md R168) and the reduction to 14 bits (R169). The
rationals are computed through numerators and denominators, so that a conversion evaluates in the kernel; Safety.lean gives
R168's formulas over the rationals themselves.
-/

namespace Sys2Proof.Machine

open Sys2Proof.Config

/-- `wrap14(z) = z mod 2^VALUE_BITS` (spec/00_scope.md R10). -/
def wrap14 (z : Int) : Raw :=
  BitVec.ofInt VALUE_BITS z

/-- `roundHalfAway(n / d)` of R168: sign(n) · floor(|n / d| + 1/2), with `d` positive. -/
def roundQuotient (n : Int) (d : Nat) : Int :=
  n.sign * ((2 * n.natAbs + d) / (2 * d) : Nat)

/-- R168 `convTouch` and `convVolt`: wrap14(roundHalfAway(V × scale)). -/
def referenceVolts (scale : Rat) (v : Reading) : Raw :=
  wrap14 (roundQuotient (v.num * scale.num) (v.den * scale.den))

/-- R168 `convCurrent`: wrap14(roundHalfAway(A / CURRENT_LSB) + CURRENT_ZERO). -/
def referenceAmps (lsb : Rat) (offset : Nat) (a : Reading) : Raw :=
  wrap14 (roundQuotient (a.num * lsb.num.sign * lsb.den) (a.den * lsb.num.natAbs) + offset)

end Sys2Proof.Machine
end

