-- ==== Sys2Proof/Machine/Params.lean ====
section
/-!
DEFINITION. The default parameters: the source's values of spec/00_scope.md R8 ("unaudited", spec/92_eei_decisions.md D28;
log 10) and the reference conversions of spec/42_address_router.md R168 (log 11).
-/

namespace Sys2Proof.Machine

open Sys2Proof.Config

/-- The numeric defaults of R8's table. -/
def numbers : Numbers where
  SET_MARKER := 0xD3
  GET_MARKER := 0xC7
  MAX_VALUES := 32
  SERVO_BASE := 0
  SERVO_COUNT := 18
  SERVO_MIN_US := 500
  SERVO_MAX_US := 2500
  RELAY_INDEX := 19
  DIO_INDICES := (20, 21)
  TOUCH_BASE := 22
  TOUCH_COUNT := 6
  CURRENT_INDEX := 28
  VOLTAGE_INDEX := 29
  RGB_BASE := 32
  RGB_COUNT := 6
  TOUCH_SCALE := Rat.mk' 310303 1000
  VOLT_SCALE := Rat.mk' 310303 1000
  CURRENT_LSB := Rat.mk' 407 5000
  CURRENT_ZERO := 512
  RGB_NIBBLE_SHIFT := 4

/-- The parameters the machine runs with: R8's defaults. -/
def params : Params :=
  { numbers with
    convTouch := referenceVolts numbers.TOUCH_SCALE
    convVolt := referenceVolts numbers.VOLT_SCALE
    convCurrent := referenceAmps numbers.CURRENT_LSB numbers.CURRENT_ZERO }

end Sys2Proof.Machine
end

