-- ==== Sys2Proof/Syntax.lean ====
section
/-!
DEFINITION. The instructions: the four byte classes of spec/30_encoding.md R70, R82, one constructor per row of
spec/opcode_table.json. A frame is a sequence of them (R72, R73); the core takes one per step (spec/00_scope.md R6; log 1).
-/

namespace Sys2Proof

/-- One input byte, classified (R70). -/
inductive Instr where
  /-- the SET marker (row SET, R122) -/
  | set
  /-- the GET marker (row GET, R123) -/
  | get
  /-- an unrecognised marker: any other byte with bit 7 set (row INVALID_MARKER, R124) -/
  | invalidMarker (b : Byte)
  /-- a byte with bit 7 clear and its 7-bit payload (row DATA, R125 to R133) -/
  | data (payload : Group)
deriving DecidableEq, Repr

end Sys2Proof
end

