-- ==== Sys2Proof/WellFormed.lean ====
section
/-!
DEFINITION. Which instructions some byte stands for (spec/30_encoding.md R70, R78).
-/

namespace Sys2Proof

open Sys2Proof.Config

/-- An unrecognised marker has bit 7 set and is neither recognised marker; every other constructor is well formed. -/
def wellFormedWith (p : Params) : Instr → Bool
  | .set => true
  | .get => true
  | .invalidMarker b => b.msb && b != p.SET_MARKER && b != p.GET_MARKER
  | .data _ => true

/-- `wellFormedWith` at the default markers. -/
def wellFormed (i : Instr) : Bool :=
  wellFormedWith Machine.params i

end Sys2Proof
end

