-- ==== Sys2Proof/Decode.lean ====
section
/-!
DEFINITION. Decoding a byte to its class and encoding it back (spec/30_encoding.md R70, R71, R82), and the frames of R72,
R73 and R83 as bytes.
-/

namespace Sys2Proof

open Sys2Proof.Config

/-- R70, R71, R82: the recognised markers first, as whole bytes; then bit 7. Total: no byte is refused (R81). -/
def decodeByteWith (p : Params) (b : Byte) : Instr :=
  if b = p.SET_MARKER then .set
  else if b = p.GET_MARKER then .get
  else if b.msb then .invalidMarker b
  else .data (b.setWidth PAYLOAD_BITS)

/-- `decodeByteWith` at the default markers. -/
def decodeByte (b : Byte) : Instr :=
  decodeByteWith Machine.params b

/-- Why a list of bytes decodes to no instruction. -/
inductive DecodeError where
  /-- no byte is left; the only reason, since every byte has a class (R81) -/
  | noByte
deriving DecidableEq, Repr

/-- The first instruction of a stream, and the rest of the stream. -/
def decodeWith (p : Params) : List Byte → Except DecodeError (Instr × List Byte)
  | [] => .error .noByte
  | b :: rest => .ok (decodeByteWith p b, rest)

/-- `decodeWith` at the default markers. -/
def decode (bytes : List Byte) : Except DecodeError (Instr × List Byte) :=
  decodeWith Machine.params bytes

/-- The byte of an instruction (R70): a data byte is its payload with bit 7 clear (R55). -/
def encodeByteWith (p : Params) : Instr → Byte
  | .set => p.SET_MARKER
  | .get => p.GET_MARKER
  | .invalidMarker b => b
  | .data d => d.setWidth 8

/-- The words of an instruction: one byte. -/
def encodeWith (p : Params) (i : Instr) : List Byte :=
  [encodeByteWith p i]

/-- `encodeWith` at the default markers. -/
def encode (i : Instr) : List Byte :=
  encodeWith Machine.params i

/-- The bytes of an opcode-table word of `nbits` bits: the least significant byte first, at least the one byte that
every instruction has. -/
def tableBytes (nbits w : Nat) : List Byte :=
  (List.range (max 1 (nbits / 8))).map fun i => BitVec.ofNat 8 (w >>> (8 * i))

/-- The instruction the decoder reads from a word of the opcode table, where the word is one whole instruction. -/
def decodeTableWord (nbits w : Nat) : Option Instr :=
  match decode (tableBytes nbits w) with
  | .ok (i, []) => some i
  | _ => none

/-- R100: the two groups of a value, the low one first; a natural outside 14 bits is truncated (R103). -/
def encodeValue (v : Nat) : Byte × Byte :=
  (BitVec.ofNat 8 (v &&& payloadMask), BitVec.ofNat 8 ((v >>> PAYLOAD_BITS) &&& payloadMask))

/-- The value pairs of a frame, low group first, in index order (R54, R72, R74). -/
def valuePairs : List Raw → List Byte
  | [] => []
  | v :: vs => (encodeValue v.toNat).1 :: (encodeValue v.toNat).2 :: valuePairs vs

/-- The frame `SET s, [v0, ...]` (R72, R83). -/
def setFrame (p : Params) (s : Group) (vals : List Raw) : List Byte :=
  p.SET_MARKER :: s.setWidth 8 :: BitVec.ofNat 8 vals.length :: valuePairs vals

/-- The frame `GET s, c` (R73, R83). -/
def getFrame (p : Params) (s c : Group) : List Byte :=
  [p.GET_MARKER, s.setWidth 8, c.setWidth 8]

/-- The frame `RESP s, c, [v0, ...]`: the GET response (R74), `start` and `count` echoed as received (R194). -/
def respFrame (p : Params) (start : Index) (count : Count) (vals : List Raw) : List Byte :=
  p.GET_MARKER :: start.setWidth 8 :: count.setWidth 8 :: valuePairs vals

end Sys2Proof
end

