-- ==== Sys2Proof/Machine/State.lean ====
section
/-!
DEFINITION. The state of the core as plain data (spec/10_state.md R20, R35), the events of a step (spec/00_scope.md R11,
spec/60_exceptions.md R220, R232), and the reasons a step can stop.
-/

namespace Sys2Proof.Machine

open Sys2Proof.Config

/-- The command of a packet (R23). -/
inductive Kind where
  | set
  | get
deriving DecidableEq, Repr

/-- The parser state, with the slot `i` of R26 in the two value phases (R20, R22). -/
inductive Phase where
  | idle
  | awaitStartIndex
  | awaitCount
  | awaitValueLow (i : Byte)
  | awaitValueHigh (i : Byte)
deriving DecidableEq, Repr

/-- A completed packet, handed by the parser to the dispatcher as a value (R28, R120). -/
structure Packet where
  kind : Kind
  startIndex : Index
  count : Count
  /-- `[values[0], ..., values[min(count, MAX_VALUES) - 1]]` for Set, empty for Get (R120) -/
  vals : List Raw
deriving DecidableEq, Repr

/-- The direction recorded with an address miss (R220). -/
inductive Direction where
  | write
  | read
deriving DecidableEq, Repr

/-- The conditions of R220 with the information each records; observation only (R11). -/
inductive Condition where
  | framingError (b : Byte)
  | malformedPacket (kind : Kind) (startIndex : Index) (count : Count)
  | addressMiss (index : Nat) (dir : Direction)
  | peripheralFailure (index : Nat)
  | frameAborted (old : Phase) (b : Byte)
  | strayData (b : Byte)
  | readOnlyWrite (index : Nat)
  | writeOnlyRead (index : Nat)
deriving DecidableEq, Repr

/-- A call on a peripheral capability, a read with its answer (R232). -/
inductive CapCall where
  | setPulseWidthMicroseconds (channel us : Nat)
  | getPulseWidthMicroseconds (channel : Nat) (answer : Reply Nat)
  | setLevel (channel : Nat) (level : Bool)
  | getLevel (channel : Nat) (answer : Reply Bool)
  | readVoltage (channel : Nat) (answer : Reply Reading)
  | readAmps (answer : Reply Reading)
  | readVolts (answer : Reply Reading)
  | setColor (channel : Nat) (r g b : Byte)
deriving DecidableEq, Repr

/-- An event of a step (R29, R31, R198; log 17). -/
inductive Event where
  /-- `Emit(pkt)`: the packet-ready signal with the completed packet (R11, R29) -/
  | packetReady (pkt : Packet)
  /-- a capability call -/
  | call (c : CapCall)
  /-- `Tx(b)`: one output byte -/
  | tx (b : Byte)
  /-- `raise Event(...)`: a condition, in the observation only -/
  | condition (c : Condition)
deriving DecidableEq, Repr

/-- What the world outside sends to the core, in arrival order: a byte (R51, R236) or the reset event, which falls
between steps (R250; log 5, log 6). -/
inductive Input where
  | byte (b : Byte)
  | reset
deriving DecidableEq, Repr

/-- The answers the peripheral environment is going to give, one queue per read capability (R7, R232, 92 D15), and the
number of answers drawn past the end of a queue (log 4). -/
structure Environment where
  servo : List (Reply Nat)
  digital : List (Reply Bool)
  touch : List (Reply Reading)
  current : List (Reply Reading)
  voltage : List (Reply Reading)
  draws : Nat
deriving DecidableEq, Repr

/-- The core between two steps (R20), its two streams (R51), its environment (R7) and the observation (R11). `none` is the
spec's own "unwritten" (R28). -/
structure State where
  phase : Phase
  kind : Option Kind
  startIndex : Option Index
  count : Option Count
  /-- the value buffer: slot `i` is item `i`; `MAX_VALUES` items (R27; log 27) -/
  values : List (Option Raw)
  /-- the output stream since reset, oldest byte first (R31, R35) -/
  output : List Byte
  /-- the input not yet consumed, next item first -/
  input : List Input
  env : Environment
  /-- every event of the run, oldest first -/
  trace : List Event
deriving DecidableEq, Repr

/-- Reading an unwritten packet field is a model fault (R28, 92 D7). Each is raised by `execData` alone and is safe: the
machine stops where a realisation would go on with stale contents, and no reachable state takes it (R34). -/
inductive Fault where
  /-- raised by `execData` in AwaitCount when `kind` is unwritten; safe -/
  | unwrittenKind
  /-- raised by `execData` at the completion of a packet when `startIndex` is unwritten; safe -/
  | unwrittenStartIndex
  /-- raised by `execData` in AwaitValueHigh when `count` is unwritten; safe -/
  | unwrittenCount
  /-- raised by `execData` in AwaitValueHigh when a slot it reads is unwritten; safe -/
  | unwrittenValue (slot : Nat)
deriving DecidableEq, Repr

/-- The core refuses no byte (R81) and the model no instruction. -/
inductive Refusal where
  /-- raised by an arm of `exec` whose instruction has no meaning yet; no arm raises it now; safe -/
  | notModelled (mnemonic : String)
deriving DecidableEq, Repr

/-- The machine right after reset (R35): `Idle`, every packet field unwritten, the output stream empty. The fields that
are the model's own are empty or zero (log 9). -/
def State.reset : State where
  phase := .idle
  kind := none
  startIndex := none
  count := none
  values := List.replicate params.MAX_VALUES none
  output := []
  input := []
  env := { servo := [], digital := [], touch := [], current := [], voltage := [], draws := 0 }
  trace := []

end Sys2Proof.Machine
end

