-- ==== Sys2Proof/Machine/Ops.lean ====
section
/-!
DEFINITION. The named operations over the state: recording an event, emitting output bytes, the packet lifecycle
(spec/10_state.md R28), reset (spec/70_reset_and_hazards.md R250), and drawing an answer of the environment
(spec/92_eei_decisions.md D15).
-/

namespace Sys2Proof.Machine

open Sys2Proof.Config

/-- The next event of the run (R198). -/
def State.record (e : Event) (s : State) : State :=
  { s with trace := s.trace ++ [e] }

/-- `Cap.op(args)` (R11). -/
def State.call (c : CapCall) (s : State) : State :=
  s.record (.call c)

/-- `Tx(b)`: append a byte to the output stream (R11, R31). -/
def State.tx (b : Byte) (s : State) : State :=
  { s with output := s.output ++ [b], trace := s.trace ++ [.tx b] }

/-- `Tx` of each byte of a list, in order. -/
def State.txAll : List Byte → State → State
  | [], s => s
  | b :: bs, s => State.txAll bs (s.tx b)

/-- The four packet registers become unwritten (R28). -/
def State.clearPacket (p : Params) (s : State) : State :=
  { s with
    kind := none
    startIndex := none
    count := none
    values := List.replicate p.MAX_VALUES none }

/-- The reset event (R250): `Idle`, the packet registers unwritten, the output stream empty (R35). It records nothing and
leaves the environment, the input that follows and the observation alone (log 6). -/
def State.applyReset (p : Params) (s : State) : State :=
  { s.clearPacket p with phase := .idle, output := [] }

/-- Waiting for the next input byte: all state survives (spec/60_exceptions.md R235). -/
def State.wait (s : State) : State :=
  s

/-- The input consumed: `rest` is what is left of it (R51: read once, in order). -/
def State.setInput (rest : List Input) (s : State) : State :=
  { s with input := rest }

/-- The answer to the next servo read: the head of its queue, else a free value (log 4). -/
def Environment.nextServo (e : Environment) : Reply Nat :=
  match e.servo with
  | a :: _ => a
  | [] => freeServo e.draws

/-- The answer to the next digital read. -/
def Environment.nextDigital (e : Environment) : Reply Bool :=
  match e.digital with
  | a :: _ => a
  | [] => freeDigital e.draws

/-- The answer to the next touch read. -/
def Environment.nextTouch (e : Environment) : Reply Reading :=
  match e.touch with
  | a :: _ => a
  | [] => freeTouch e.draws

/-- The answer to the next current read. -/
def Environment.nextCurrent (e : Environment) : Reply Reading :=
  match e.current with
  | a :: _ => a
  | [] => freeCurrent e.draws

/-- The answer to the next voltage read. -/
def Environment.nextVoltage (e : Environment) : Reply Reading :=
  match e.voltage with
  | a :: _ => a
  | [] => freeVoltage e.draws

/-- The counter of free draws after a read from a queue that holds `q`. -/
def drawsAfter {α : Type} (q : List α) (n : Nat) : Nat :=
  match q with
  | _ :: _ => n
  | [] => n + 1

/-- The environment after a servo read: the answer is used up. -/
def Environment.dropServo (e : Environment) : Environment :=
  { e with servo := e.servo.tail, draws := drawsAfter e.servo e.draws }

/-- The environment after a digital read. -/
def Environment.dropDigital (e : Environment) : Environment :=
  { e with digital := e.digital.tail, draws := drawsAfter e.digital e.draws }

/-- The environment after a touch read. -/
def Environment.dropTouch (e : Environment) : Environment :=
  { e with touch := e.touch.tail, draws := drawsAfter e.touch e.draws }

/-- The environment after a current read. -/
def Environment.dropCurrent (e : Environment) : Environment :=
  { e with current := e.current.tail, draws := drawsAfter e.current e.draws }

/-- The environment after a voltage read. -/
def Environment.dropVoltage (e : Environment) : Environment :=
  { e with voltage := e.voltage.tail, draws := drawsAfter e.voltage e.draws }

/-- One capability read: the call with its answer is recorded and the answer used up. -/
def State.readCall (c : CapCall) (e : Environment) (s : State) : State :=
  { s.call c with env := e }

end Sys2Proof.Machine
end

