-- ==== Sys2Proof/Machine/Flags.lean ====
section
/-!
DEFINITION. The core has no condition codes; its one flag is the packet-ready signal (spec/10_state.md R29), and its
conditions are observation only (spec/60_exceptions.md R220).
-/

namespace Sys2Proof.Machine

open Sys2Proof.Config

/-- `raise Event(code, info)` (R11): recorded, and nothing else. -/
def State.raise (c : Condition) (s : State) : State :=
  s.record (.condition c)

/-- The packet-ready signal of a completed packet (R29): the fields become unwritten, the phase `Idle` (R28), and
`Emit(pkt)` is the event of this step. -/
def State.packetReady (p : Params) (pkt : Packet) (s : State) : State :=
  State.record (.packetReady pkt) { s.clearPacket p with phase := .idle }

/-- The condition codes of R220's table. -/
def Condition.code : Condition → Nat
  | .framingError _ => 1
  | .malformedPacket _ _ _ => 2
  | .addressMiss _ _ => 3
  | .peripheralFailure _ => 4
  | .frameAborted _ _ => 5
  | .strayData _ => 6
  | .readOnlyWrite _ => 7
  | .writeOnlyRead _ => 8

end Sys2Proof.Machine
end

