-- ==== Sys2Proof/Machine/Operands.lean ====
section
/-!
DEFINITION. The operand forms: the value codec (spec/40_value_codec.md), the fields of a frame (spec/30_encoding.md R75,
R76), and reading and writing the packet registers (spec/10_state.md R23 to R28).
-/

namespace Sys2Proof.Machine

open Sys2Proof.Config

/-- `b & 0x7F` as a 14-bit value: bits 13..7 are 0 (R130). -/
def lowGroup (b : Byte) : Raw :=
  (b &&& BitVec.ofNat 8 payloadMask).setWidth VALUE_BITS

/-- `v | ((b & 0x7F) << 7)` (R131). -/
def orHighGroup (v : Raw) (b : Byte) : Raw :=
  v ||| ((b &&& BitVec.ofNat 8 payloadMask).setWidth VALUE_BITS <<< PAYLOAD_BITS)

/-- R101 `decode(low, high) = (low & 0x7F) | ((high & 0x7F) << 7)`. -/
def decodeValue (low high : Byte) : Raw :=
  orHighGroup (lowGroup low) high

/-- `zext_8(b)`: the `startIndex` field is a whole data byte, not masked (R75). -/
def fieldIndex (b : Byte) : Index :=
  b.setWidth INDEX_BITS

/-- `zext_8(b)`: the `count` field is a whole data byte, not masked (R75). -/
def fieldCount (b : Byte) : Count :=
  b.setWidth COUNT_BITS

/-- `clamp(v, lo, hi) = min(max(v, lo), hi)` (R11). -/
def clamp (v lo hi : Nat) : Nat :=
  min (max v lo) hi

/-- Read `kind`; unwritten is a model fault (R28). -/
def State.readKind (s : State) : Except Fault Kind :=
  match s.kind with
  | some k => .ok k
  | none => .error .unwrittenKind

/-- Read `startIndex`; unwritten is a model fault (R28). -/
def State.readStartIndex (s : State) : Except Fault Index :=
  match s.startIndex with
  | some b => .ok b
  | none => .error .unwrittenStartIndex

/-- Read `count`; unwritten is a model fault (R28). -/
def State.readCount (s : State) : Except Fault Count :=
  match s.count with
  | some b => .ok b
  | none => .error .unwrittenCount

/-- Slot `j` of the value buffer, `none` when it is unwritten or there is no such slot (R27). -/
def State.slot (j : Nat) (s : State) : Option Raw :=
  (s.values[j]?).join

/-- Read slot `j`; unwritten is a model fault (R28). -/
def State.readSlot (j : Nat) (s : State) : Except Fault Raw :=
  match s.slot j with
  | some v => .ok v
  | none => .error (.unwrittenValue j)

/-- Write slot `j` (R27). -/
def State.writeSlot (j : Nat) (v : Raw) (s : State) : State :=
  { s with values := s.values.set j (some v) }

/-- Read slots `j .. j+n-1`, in order; the first unwritten one is a model fault. -/
def State.readSlots (s : State) : Nat → Nat → Except Fault (List Raw)
  | _, 0 => .ok []
  | j, n + 1 =>
    match s.readSlot j with
    | .error f => .error f
    | .ok v =>
      match s.readSlots (j + 1) n with
      | .error f => .error f
      | .ok vs => .ok (v :: vs)

/-- R130: the low group goes to slot `i`, its high bits become 0; a slot at or beyond `MAX_VALUES` stores nothing (R133). -/
def State.storeLow (p : Params) (i b : Byte) (s : State) : State :=
  if i.toNat < p.MAX_VALUES then s.writeSlot i.toNat (lowGroup b) else s

/-- R131, R132: the high group is ORed into slot `i`; a slot at or beyond `MAX_VALUES` stores nothing (R133). -/
def State.storeHigh (p : Params) (i b : Byte) (s : State) : Except Fault State :=
  if i.toNat < p.MAX_VALUES then
    match s.readSlot i.toNat with
    | .error f => .error f
    | .ok v => .ok (s.writeSlot i.toNat (orHighGroup v b))
  else .ok s

end Sys2Proof.Machine
end

