-- ==== Sys2Proof/Machine/Parser.lean ====
section
/-!
DEFINITION. The PacketParser: one definition per transition rule, R121 to R133 of spec/41_packet_parser.md.
-/

namespace Sys2Proof.Machine

open Sys2Proof.Config

/-- `(st', ready, pkt)` of R120: the packet is there exactly when `ready`; an error is a read of an unwritten field (R28). -/
abbrev Parsed := Except Fault (State × Option Packet)

/-- R121, R135: a marker byte abandons the frame in progress, in every phase. -/
def abandonFrame (p : Params) (b : Byte) (s : State) : State :=
  { State.clearPacket p (if s.phase = .idle then s else s.raise (.frameAborted s.phase b)) with phase := .idle }

/-- R122, R123: a recognised marker starts a frame of its kind. -/
def startFrame (k : Kind) (s : State) : State :=
  { s with kind := some k, phase := .awaitStartIndex }

/-- R122. -/
def parseSetMarker (p : Params) (s : State) : Parsed :=
  .ok (startFrame .set (abandonFrame p p.SET_MARKER s), none)

/-- R123. -/
def parseGetMarker (p : Params) (s : State) : Parsed :=
  .ok (startFrame .get (abandonFrame p p.GET_MARKER s), none)

/-- R124. -/
def parseInvalidMarker (p : Params) (b : Byte) (s : State) : Parsed :=
  .ok ((abandonFrame p b s).raise (.framingError b), none)

/-- R125: a data byte in `Idle` is discarded. -/
def strayData (b : Byte) (s : State) : Parsed :=
  .ok (s.raise (.strayData b), none)

/-- R126: the index field, any data byte as it is. -/
def storeStartIndex (b : Byte) (s : State) : Parsed :=
  .ok ({ s with startIndex := some (fieldIndex b), phase := .awaitCount }, none)

/-- The parser hands over a completed packet (R28, R29). -/
def complete (p : Params) (pkt : Packet) (s : State) : Parsed :=
  .ok (s.packetReady p pkt, some pkt)

/-- R127 (Get) and R128 (Set with count 0): complete at the count byte, with no values. -/
def completeAtCount (p : Params) (k : Kind) (b : Byte) (s : State) : Parsed :=
  match s.readStartIndex with
  | .error f => .error f
  | .ok start => complete p { kind := k, startIndex := start, count := fieldCount b, vals := [] } s

/-- R129: the value pairs follow. -/
def beginValues (b : Byte) (s : State) : Parsed :=
  .ok ({ s with count := some (fieldCount b), phase := .awaitValueLow 0 }, none)

/-- `AwaitCount`: R127, R128 or R129, by the kind and the count. The parser does not validate the count (R134). -/
def parseCount (p : Params) (b : Byte) (s : State) : Parsed :=
  match s.readKind with
  | .error f => .error f
  | .ok .get => completeAtCount p .get b s
  | .ok .set => if b = 0 then completeAtCount p .set b s else beginValues b s

/-- R130. -/
def parseValueLow (p : Params) (i b : Byte) (s : State) : Parsed :=
  .ok ({ s.storeLow p i b with phase := .awaitValueHigh i }, none)

/-- R132: the last pair is in; the packet takes the first `min(count, MAX_VALUES)` slots. -/
def completeValues (p : Params) (count : Count) (s : State) : Parsed :=
  match s.readStartIndex with
  | .error f => .error f
  | .ok start =>
    match s.readSlots 0 (min count.toNat p.MAX_VALUES) with
    | .error f => .error f
    | .ok vals => complete p { kind := .set, startIndex := start, count := count, vals := vals } s

/-- R131: on to the next pair. The slot register has 8 bits (R26; log 3). -/
def nextPair (i : Byte) (s : State) : Parsed :=
  .ok ({ s with phase := .awaitValueLow (i + 1) }, none)

/-- `AwaitValueHigh(i)`: R131 or R132, as `i + 1 = count` or not. -/
def parseValueHigh (p : Params) (i b : Byte) (s : State) : Parsed :=
  match s.storeHigh p i b with
  | .error f => .error f
  | .ok s1 =>
    match s1.readCount with
    | .error f => .error f
    | .ok c => if i.toNat + 1 = c.toNat then completeValues p c s1 else nextPair i s1

/-- A data byte, by the phase (R125 to R133). -/
def parseData (p : Params) (b : Byte) (s : State) : Parsed :=
  match s.phase with
  | .idle => strayData b s
  | .awaitStartIndex => storeStartIndex b s
  | .awaitCount => parseCount p b s
  | .awaitValueLow i => parseValueLow p i b s
  | .awaitValueHigh i => parseValueHigh p i b s

end Sys2Proof.Machine
end

