-- ==== Sys2Proof/Machine/Router.lean ====
section
/-!
DEFINITION. The AddressSpaceRouter: the address map (spec/20_memory.md R52, R53) and, per entry kind, the write rules
R151 to R156 and the read rules R160 to R167 of spec/42_address_router.md.
-/

namespace Sys2Proof.Machine

open Sys2Proof.Config

/-- An entry of the address map with its channel number (R52, R170). -/
inductive Entry where
  | servo (ch : Nat)
  | digitalOutput (ch : Nat)
  | digitalIO (ch : Nat)
  | touch (ch : Nat)
  | current
  | voltage
  | rgb (ch : Nat)
  | unmapped
deriving DecidableEq, Repr

/-- R53 `resolve(k)`; an index outside every range is Unmapped (R50; log 16). -/
def resolve (p : Params) (k : Nat) : Entry :=
  if p.SERVO_BASE ≤ k ∧ k < p.SERVO_BASE + p.SERVO_COUNT then .servo (k - p.SERVO_BASE)
  else if k = p.RELAY_INDEX then .digitalOutput 0
  else if k = p.DIO_INDICES.1 then .digitalIO 1
  else if k = p.DIO_INDICES.2 then .digitalIO 2
  else if p.TOUCH_BASE ≤ k ∧ k < p.TOUCH_BASE + p.TOUCH_COUNT then .touch (k - p.TOUCH_BASE)
  else if k = p.CURRENT_INDEX then .current
  else if k = p.VOLTAGE_INDEX then .voltage
  else if p.RGB_BASE ≤ k ∧ k < p.RGB_BASE + p.RGB_COUNT then .rgb (k - p.RGB_BASE)
  else .unmapped

/-- R151: the value is a pulse width in µs, clamped. -/
def writeServo (p : Params) (ch : Nat) (v : Raw) (s : State) : State :=
  s.call (.setPulseWidthMicroseconds ch (clamp v.toNat p.SERVO_MIN_US p.SERVO_MAX_US))

/-- R152: the relay is driven high by any nonzero 14-bit value. -/
def writeRelay (ch : Nat) (v : Raw) (s : State) : State :=
  s.call (.setLevel ch (v != 0))

/-- R153: digital I/O A1, A2, driven as the relay (92 D9; log 14). -/
def writeDigitalIO (ch : Nat) (v : Raw) (s : State) : State :=
  s.call (.setLevel ch (v != 0))

/-- `v[lo+3:lo] << RGB_NIBBLE_SHIFT`, an 8-bit channel value (R154). -/
def rgbChannel (p : Params) (v : Raw) (lo : Nat) : Byte :=
  (v.extractLsb' lo 4).setWidth 8 <<< p.RGB_NIBBLE_SHIFT

/-- R154: three nibbles, each shifted to an 8-bit channel; bits 13..12 are ignored (92 D11). -/
def writeRgb (p : Params) (ch : Nat) (v : Raw) (s : State) : State :=
  s.call (.setColor ch (rgbChannel p v 8) (rgbChannel p v 4) (rgbChannel p v 0))

/-- R155: a sensor ignores the write. -/
def writeSensor (k : Nat) (s : State) : State :=
  s.raise (.readOnlyWrite k)

/-- R156: an unmapped index ignores the write. -/
def writeUnmapped (k : Nat) (s : State) : State :=
  s.raise (.addressMiss k .write)

/-- R150, R171 `write(k, v)`. -/
def routerWrite (p : Params) (k : Nat) (v : Raw) (s : State) : State :=
  match resolve p k with
  | .servo ch => writeServo p ch v s
  | .digitalOutput ch => writeRelay ch v s
  | .digitalIO ch => writeDigitalIO ch v s
  | .rgb ch => writeRgb p ch v s
  | .touch _ => writeSensor k s
  | .current => writeSensor k s
  | .voltage => writeSensor k s
  | .unmapped => writeUnmapped k s

/-- R167: a failed read gives 0 and the packet goes on. -/
def readFailure (k : Nat) (s : State) : Raw × State :=
  (0, s.raise (.peripheralFailure k))

/-- The raw value of an answered read call: `conv x` for `Ok(x)`, R167 for `Fail`. -/
def answered {α : Type} (k : Nat) (conv : α → Raw) (a : Reply α) (s : State) : Raw × State :=
  match a with
  | .ok x => (conv x, s)
  | .fail => readFailure k s

/-- A digital level as a raw value (R161). -/
def levelRaw (l : Bool) : Raw :=
  if l then 1 else 0

/-- R160: the answer reduced to 14 bits (R169). -/
def readServo (k ch : Nat) (s : State) : Raw × State :=
  answered k (fun us : Nat => wrap14 us) s.env.nextServo
    (s.readCall (.getPulseWidthMicroseconds ch s.env.nextServo) s.env.dropServo)

/-- R161: relay and digital I/O. -/
def readDigital (k ch : Nat) (s : State) : Raw × State :=
  answered k levelRaw s.env.nextDigital
    (s.readCall (.getLevel ch s.env.nextDigital) s.env.dropDigital)

/-- R162. -/
def readTouch (p : Params) (k ch : Nat) (s : State) : Raw × State :=
  answered k p.convTouch s.env.nextTouch
    (s.readCall (.readVoltage ch s.env.nextTouch) s.env.dropTouch)

/-- R163. -/
def readCurrent (p : Params) (k : Nat) (s : State) : Raw × State :=
  answered k p.convCurrent s.env.nextCurrent
    (s.readCall (.readAmps s.env.nextCurrent) s.env.dropCurrent)

/-- R164. -/
def readVoltage (p : Params) (k : Nat) (s : State) : Raw × State :=
  answered k p.convVolt s.env.nextVoltage
    (s.readCall (.readVolts s.env.nextVoltage) s.env.dropVoltage)

/-- R165: an RGB index reads 0, no call (92 D10; log 15). -/
def readRgb (k : Nat) (s : State) : Raw × State :=
  (0, s.raise (.writeOnlyRead k))

/-- R166: an unmapped index reads 0, no call. -/
def readUnmapped (k : Nat) (s : State) : Raw × State :=
  (0, s.raise (.addressMiss k .read))

/-- R150, R171 `read(k)`. -/
def routerRead (p : Params) (k : Nat) (s : State) : Raw × State :=
  match resolve p k with
  | .servo ch => readServo k ch s
  | .digitalOutput ch => readDigital k ch s
  | .digitalIO ch => readDigital k ch s
  | .touch ch => readTouch p k ch s
  | .current => readCurrent p k s
  | .voltage => readVoltage p k s
  | .rgb _ => readRgb k s
  | .unmapped => readUnmapped k s

end Sys2Proof.Machine
end

