-- ==== Sys2Proof/Machine/Dispatcher.lean ====
section
/-!
DEFINITION. The CommandDispatcher: validation, SET, GET and the response (spec/43_command_dispatcher.md R190 to R194).
-/

namespace Sys2Proof.Machine

open Sys2Proof.Config

/-- R192: write the values to `k`, `k + 1`, ..., in ascending index order. -/
def writeAll (p : Params) : Nat → List Raw → State → State
  | _, [], s => s
  | k, v :: vs, s => writeAll p (k + 1) vs (routerWrite p k v s)

/-- R193: read `n` indices from `k` on, in ascending index order. -/
def readAll (p : Params) : Nat → Nat → State → List Raw × State
  | _, 0, s => ([], s)
  | k, n + 1, s =>
    let first := routerRead p k s
    let others := readAll p (k + 1) n first.2
    (first.1 :: others.1, others.2)

/-- R192: no output byte. -/
def dispatchSet (p : Params) (pkt : Packet) (s : State) : State :=
  writeAll p pkt.startIndex.toNat pkt.vals s

/-- R193, then R194: every read comes before the first response byte. -/
def dispatchGet (p : Params) (pkt : Packet) (s : State) : State :=
  let resp := readAll p pkt.startIndex.toNat pkt.count.toNat s
  resp.2.txAll (respFrame p pkt.startIndex pkt.count resp.1)

/-- R191: the counts that are dispatched. -/
abbrev validCount (p : Params) (count : Count) : Prop :=
  1 ≤ count.toNat ∧ count.toNat ≤ p.MAX_VALUES

/-- R191: a packet with an invalid count is dropped before any effect; else R192 or R193 by its kind. -/
def dispatch (p : Params) (pkt : Packet) (s : State) : State :=
  if validCount p pkt.count then
    match pkt.kind with
    | .set => dispatchSet p pkt s
    | .get => dispatchGet p pkt s
  else s.raise (.malformedPacket pkt.kind pkt.startIndex pkt.count)

/-- R190: one call of the parser; a completed packet is acted on within the same step. -/
def drive (p : Params) : Parsed → Host.Outcome State Fault Refusal
  | .error f => .fault f
  | .ok (s, none) => .next s
  | .ok (s, some pkt) => .next (dispatch p pkt s)

end Sys2Proof.Machine
end

