-- ==== Sys2Proof/Machine/Data.lean ====
section
/-!
DEFINITION. The meaning of a data byte: row DATA of spec/opcode_table.json. The step of a frame's last byte carries out the
frame's SET or GET (spec/43_command_dispatcher.md R190).
-/

namespace Sys2Proof.Machine

/-- Data byte (R125 to R133): bit 7 is clear, bits 6..0 are the payload (R55). -/
def execData (payload : Group) (s : State) : Host.Outcome State Fault Refusal :=
  drive params (parseData params (payload.setWidth 8) s)

end Sys2Proof.Machine
end

