-- ==== Sys2Proof/Machine/Marker.lean ====
section
/-!
DEFINITION. The meanings of the marker bytes: rows SET, GET and INVALID_MARKER of spec/opcode_table.json.
-/

namespace Sys2Proof.Machine

/-- SET marker (R122): the parser step, driven by the dispatcher (R190). -/
def execSet (s : State) : Host.Outcome State Fault Refusal :=
  drive params (parseSetMarker params s)

/-- GET marker (R123). -/
def execGet (s : State) : Host.Outcome State Fault Refusal :=
  drive params (parseGetMarker params s)

/-- Unrecognised marker (R124). -/
def execInvalidMarker (b : Byte) (s : State) : Host.Outcome State Fault Refusal :=
  drive params (parseInvalidMarker params b s)

end Sys2Proof.Machine
end

