-- ==== Sys2Proof/Machine/Dispatch.lean ====
section
/-!
DEFINITION. One arm per instruction: the byte classes of spec/30_encoding.md R70, each with its meaning.
-/

namespace Sys2Proof.Machine

def exec (i : Instr) (s : State) : Host.Outcome State Fault Refusal :=
  match i with
  | .set => Sys2Proof.Machine.execSet s
  | .get => Sys2Proof.Machine.execGet s
  | .invalidMarker b => Sys2Proof.Machine.execInvalidMarker b s
  | .data payload => Sys2Proof.Machine.execData payload s

end Sys2Proof.Machine
end

