-- ==== Sys2Proof/Machine/Step.lean ====
section
/-!
DEFINITION. One step: the next input item is consumed, and a byte is decoded and run (spec/00_scope.md R6,
spec/43_command_dispatcher.md R198).
-/

namespace Sys2Proof.Machine

/-- With a byte, the core's step on it; with the reset event, R250; with no input the core waits (R235; log 5). -/
def step (s : State) : Host.Outcome State Fault Refusal :=
  match s.input with
  | [] => .next s.wait
  | .reset :: rest => .next ((s.setInput rest).applyReset params)
  | .byte b :: rest => exec (decodeByte b) (s.setInput rest)

/-- `s` with the bytes of a table word next in its input stream (log 7). -/
def State.withFetchWord (s : State) (nbits w : Nat) : State :=
  s.setInput ((tableBytes nbits w).map Input.byte ++ s.input)

end Sys2Proof.Machine
end

