-- ==== Sys2Proof/Machine/Reference.lean ====
section
/-!
DEFINITION. The core as one function of a byte, as spec/41_packet_parser.md R139 and spec/43_command_dispatcher.md R198 write
it ("normative; equal to rules R121-R133"). The machine does not run it: the claim that the meanings agree with it does.
-/

namespace Sys2Proof.Machine

open Sys2Proof.Config

/-- R139 `parse(st, b)`, one function over all bytes and phases. -/
def Reference.parse (p : Params) (st : State) (b : Byte) : Parsed :=
  if b.msb then
    let st1 := if st.phase ≠ .idle then st.raise (.frameAborted st.phase b) else st
    let st2 := { st1.clearPacket p with phase := .idle }
    if b = p.SET_MARKER then .ok ({ st2 with kind := some .set, phase := .awaitStartIndex }, none)
    else if b = p.GET_MARKER then .ok ({ st2 with kind := some .get, phase := .awaitStartIndex }, none)
    else .ok (st2.raise (.framingError b), none)
  else
    match st.phase with
    | .idle => .ok (st.raise (.strayData b), none)
    | .awaitStartIndex => .ok ({ st with startIndex := some (b.setWidth INDEX_BITS), phase := .awaitCount }, none)
    | .awaitCount => do
        let kind ← st.readKind
        if kind = .get ∨ b = 0 then
          let start ← st.readStartIndex
          let pkt : Packet := { kind := kind, startIndex := start, count := b.setWidth COUNT_BITS, vals := [] }
          .ok (st.packetReady p pkt, some pkt)
        else .ok ({ st with count := some (b.setWidth COUNT_BITS), phase := .awaitValueLow 0 }, none)
    | .awaitValueLow i =>
        let st1 := if i.toNat < p.MAX_VALUES then st.writeSlot i.toNat ((b &&& BitVec.ofNat 8 payloadMask).setWidth VALUE_BITS) else st
        .ok ({ st1 with phase := .awaitValueHigh i }, none)
    | .awaitValueHigh i => do
        let st1 ←
          if i.toNat < p.MAX_VALUES then do
            let v ← st.readSlot i.toNat
            .ok (st.writeSlot i.toNat (v ||| ((b &&& BitVec.ofNat 8 payloadMask).setWidth VALUE_BITS <<< PAYLOAD_BITS)))
          else .ok st
        let count ← st1.readCount
        if i.toNat + 1 = count.toNat then do
          let start ← st1.readStartIndex
          let vals ← st1.readSlots 0 (min count.toNat p.MAX_VALUES)
          let pkt : Packet := { kind := .set, startIndex := start, count := count, vals := vals }
          .ok (st1.packetReady p pkt, some pkt)
        else .ok ({ st1 with phase := .awaitValueLow (i + 1) }, none)

/-- R198 `step(st, b)`: parse, validate, then the loops over the indices. -/
def Reference.step (p : Params) (st : State) (b : Byte) : Host.Outcome State Fault Refusal :=
  match Reference.parse p st b with
  | .error f => .fault f
  | .ok (st1, none) => .next st1
  | .ok (st1, some pkt) =>
    if pkt.count.toNat = 0 ∨ p.MAX_VALUES < pkt.count.toNat then
      .next (st1.raise (.malformedPacket pkt.kind pkt.startIndex pkt.count))
    else if pkt.kind = .set then
      .next ((List.range pkt.count.toNat).foldl
        (fun st i => routerWrite p (pkt.startIndex.toNat + i) (pkt.vals.getD i 0) st) st1)
    else
      let got := (List.range pkt.count.toNat).foldl
        (fun (acc : List Raw × State) i =>
          let answer := routerRead p (pkt.startIndex.toNat + i) acc.2
          (acc.1 ++ [answer.1], answer.2)) ([], st1)
      let st3 := ((got.2.tx p.GET_MARKER).tx (pkt.startIndex.setWidth 8)).tx (pkt.count.setWidth 8)
      .next (got.1.foldl (fun st v => (st.tx (encodeValue v.toNat).1).tx (encodeValue v.toNat).2) st3)

end Sys2Proof.Machine
end

