-- ==== Sys2Proof/Safety.lean ====
section
/-!
DEFINITION. What the claims speak of: the reachable shape of a state (spec/10_state.md R34), the rationals behind the sensor
conversions (spec/42_address_router.md R168), and the address map as a relation (spec/20_memory.md R52).
-/

namespace Sys2Proof.Machine

open Sys2Proof.Config

/-- Exactly the slots below `n` are written (R34). -/
def writtenExactly (n : Nat) (vals : List (Option Raw)) : Prop :=
  ∀ j, j < vals.length → ((vals[j]?).join.isSome = true ↔ j < n)

/-- R34: what every reachable state satisfies, with `startIndex ≤ 127` of R24 and the buffer's size of R27. R34's sixth clause
is in the type of a slot. -/
def State.Inv (p : Params) (s : State) : Prop :=
  s.values.length = p.MAX_VALUES ∧
  match s.phase with
  | .idle => s.kind = none ∧ s.startIndex = none ∧ s.count = none ∧ writtenExactly 0 s.values
  | .awaitStartIndex =>
      s.kind.isSome = true ∧ s.startIndex = none ∧ s.count = none ∧ writtenExactly 0 s.values
  | .awaitCount =>
      s.kind.isSome = true ∧ (∃ x, s.startIndex = some x ∧ x.toNat ≤ 127) ∧ s.count = none ∧
        writtenExactly 0 s.values
  | .awaitValueLow i =>
      s.kind = some .set ∧ (∃ x, s.startIndex = some x ∧ x.toNat ≤ 127) ∧
        (∃ c, s.count = some c ∧ c.toNat ≤ 127 ∧ i.toNat < c.toNat) ∧
        writtenExactly (min i.toNat p.MAX_VALUES) s.values
  | .awaitValueHigh i =>
      s.kind = some .set ∧ (∃ x, s.startIndex = some x ∧ x.toNat ≤ 127) ∧
        (∃ c, s.count = some c ∧ c.toNat ≤ 127 ∧ i.toNat < c.toNat) ∧
        writtenExactly (min (i.toNat + 1) p.MAX_VALUES) s.values

/-- The packet registers are unwritten (R28). -/
def State.Unwritten (p : Params) (s : State) : Prop :=
  s.kind = none ∧ s.startIndex = none ∧ s.count = none ∧ s.values = List.replicate p.MAX_VALUES none

/-- R168 `roundHalfAway(x) = sign(x) * floor(|x| + 1/2)`, over the rationals. -/
def roundHalfAway (x : Rat) : Int :=
  x.num.sign * (|x| + 1 / 2).floor

/-- Is the event a capability call? -/
def Event.isCall : Event → Bool
  | .call _ => true
  | .packetReady _ => false
  | .tx _ => false
  | .condition _ => false

/-- Is the event the packet-ready signal? -/
def Event.isReady : Event → Bool
  | .packetReady _ => true
  | .call _ => false
  | .tx _ => false
  | .condition _ => false

/-- The output byte of an event, if it is one. -/
def Event.txByte : Event → Option Byte
  | .tx b => some b
  | .packetReady _ => none
  | .call _ => none
  | .condition _ => none

/-- `n` steps in a row (R263), stopping at the first fault or refusal; the host's `Core.run` at this machine's types. -/
def runSteps : Nat → State → Host.Outcome State Fault Refusal
  | 0, s => .next s
  | n + 1, s =>
    match step s with
    | .next t => runSteps n t
    | .fault r => .fault r
    | .refused r => .refused r

/-- The condition a marker byte records when it aborts a frame (R121, R135). -/
def abortEvents (old : Phase) (b : Byte) : List Event :=
  if old = .idle then [] else [.condition (.frameAborted old b)]

/-- The row of R52 that an index lies in, with the channel it gives (R170): a relation, with no order of tests. -/
def InRow (p : Params) (k : Nat) : Entry → Prop
  | .servo ch => ch < p.SERVO_COUNT ∧ k = p.SERVO_BASE + ch
  | .digitalOutput ch => ch = 0 ∧ k = p.RELAY_INDEX
  | .digitalIO ch => (ch = 1 ∧ k = p.DIO_INDICES.1) ∨ (ch = 2 ∧ k = p.DIO_INDICES.2)
  | .touch ch => ch < p.TOUCH_COUNT ∧ k = p.TOUCH_BASE + ch
  | .current => k = p.CURRENT_INDEX
  | .voltage => k = p.VOLTAGE_INDEX
  | .rgb ch => ch < p.RGB_COUNT ∧ k = p.RGB_BASE + ch
  | .unmapped => ∀ r ∈ p.ranges, ¬ (r.1 ≤ k ∧ k < r.1 + r.2)

end Sys2Proof.Machine
end

