-- ==== Sys2Proof/Certificates/Slice0/Obligations.lean ====
section
/-!
DEFINITION. The statements for the provers. Each docstring names the rules of spec/ it formalises; `params` are R8's
defaults, and a statement over `p` holds for every choice of the parameters that meets R9.
-/

open Sys2Proof Sys2Proof.Config Sys2Proof.Machine

/-! ### Encoding -/

/-- R70, R82: bytes written out from the encoding table decode to their class. 1101_0011 and 1100_0111 are the recognised
markers, 1000_0000 and 1111_1111 unrecognised ones, 0000_0101 and 0111_1111 data bytes. -/
def Obligations.SpecBytesDecode : Prop :=
  decode [0b11010011] = .ok (.set, []) ∧
  decode [0b11000111] = .ok (.get, []) ∧
  decode [0b10000000] = .ok (.invalidMarker 0x80, []) ∧
  decode [0b11111111] = .ok (.invalidMarker 0xFF, []) ∧
  decode [0b00000101] = .ok (.data 5, []) ∧
  decode [0b01111111] = .ok (.data 127, [])

/-- R70, R71: decoding the byte of a well-formed instruction gives it back, whatever the markers are and whatever follows. -/
def Obligations.DecodeEncodeRoundTrip : Prop :=
  ∀ (p : Params), p.Valid → ∀ (i : Instr), wellFormedWith p i = true → ∀ rest : List Byte,
    decodeWith p (encodeWith p i ++ rest) = .ok (i, rest)

/-- R81, R70: every byte has exactly one class, decided as R70's table says, and its class encodes back to it. -/
def Obligations.EveryByteHasOneClass : Prop :=
  ∀ (p : Params), p.Valid → ∀ b : Byte,
    wellFormedWith p (decodeByteWith p b) = true ∧
    encodeByteWith p (decodeByteWith p b) = b ∧
    (decodeByteWith p b = .set ↔ b = p.SET_MARKER) ∧
    (decodeByteWith p b = .get ↔ b = p.GET_MARKER) ∧
    (decodeByteWith p b = .invalidMarker b ↔ b.msb = true ∧ b ≠ p.SET_MARKER ∧ b ≠ p.GET_MARKER) ∧
    ((∃ d, decodeByteWith p b = .data d) ↔ b.msb = false)

/-! ### Value codec -/

/-- R100 to R102: `encode` and `decode` are inverse on 14-bit values and on pairs of data bytes; the second half is R102's own
inference ("Conversely, for every lo, hi in 0..127"). -/
def Obligations.CodecIsInverse : Prop :=
  (∀ v : Raw, decodeValue (encodeValue v.toNat).1 (encodeValue v.toNat).2 = v) ∧
  ∀ lo hi : Byte, lo.msb = false → hi.msb = false → encodeValue (decodeValue lo hi).toNat = (lo, hi)

/-- R103: a natural outside 14 bits is truncated, neither clamped nor refused (the equation is R103's own inference from R100 and
R101). -/
def Obligations.CodecTruncates : Prop :=
  ∀ v : Nat,
    (decodeValue (encodeValue v).1 (encodeValue v).2).toNat = v % 16384 ∧
    decodeValue (encodeValue v).1 (encodeValue v).2 = wrap14 v

/-- R105: both bytes of an encoded value are data bytes, so neither can be taken for a marker (R105's own
inference from R100). -/
def Obligations.EncodedBytesAreData : Prop :=
  ∀ (p : Params), p.Valid → ∀ v : Nat,
    (encodeValue v).1.msb = false ∧ (encodeValue v).2.msb = false ∧
    (∃ d, decodeByteWith p (encodeValue v).1 = .data d) ∧ ∃ d, decodeByteWith p (encodeValue v).2 = .data d

/-- R104: the low byte and then the high byte leave in the slot exactly `decode(lo, hi)` (R104's own
inference). -/
def Obligations.IncrementalAssemblyIsDecode : Prop :=
  ∀ (p : Params) (s : State) (i lo hi : Byte), i.toNat < p.MAX_VALUES → i.toNat < s.values.length →
    (s.storeLow p i lo).storeHigh p i hi = .ok { s with values := s.values.set i.toNat (some (decodeValue lo hi)) }

/-! ### The step -/

/-- R190, R198: the next input byte is consumed and the instruction it decodes to is run on the rest. -/
def Obligations.StepRunsDecodedByte : Prop :=
  ∀ (s : State) (b : Byte) (rest : List Input) (i : Instr), s.input = .byte b :: rest →
    decode [b] = .ok (i, []) → step s = exec i { s with input := rest }

/-- R250, R35: the reset event puts the parser in `Idle` with every packet field unwritten, and neither the environment nor
the observation is touched. That the item is consumed and the output stream restarts empty is log 6. -/
def Obligations.ResetEventClearsPacket : Prop :=
  ∀ (s : State) (rest : List Input), s.input = .reset :: rest →
    step s = .next
      { phase := .idle, kind := none, startIndex := none, count := none,
        values := List.replicate params.MAX_VALUES none, output := [], input := rest, env := s.env, trace := s.trace }

/-- R235: while no byte comes, all state survives (that such a wait is a step of the model is log 5). -/
def Obligations.CoreWaitsForInput : Prop :=
  ∀ s : State, s.input = [] → step s = .next s

/-- R35 (the spec's decision D17): the values after reset that the spec gives. -/
def Obligations.ResetValues : Prop :=
  State.reset.phase = .idle ∧ State.reset.Unwritten params ∧ State.reset.output = [] ∧
  ∀ e ∈ State.reset.trace, e.isReady = false

/-- R8, R9: the default parameters are the source's values and meet the constraints. The three conversions, fields too, are
`ConversionsAreRationalFormulas`. -/
def Obligations.DefaultParametersAreValid : Prop :=
  params.Valid ∧ VALUE_BITS = 14 ∧ PAYLOAD_BITS = 7 ∧ INDEX_BITS = 8 ∧ COUNT_BITS = 8 ∧
  params.SET_MARKER = 0xD3 ∧ params.GET_MARKER = 0xC7 ∧ params.MAX_VALUES = 32 ∧
  params.SERVO_BASE = 0 ∧ params.SERVO_COUNT = 18 ∧ params.SERVO_MIN_US = 500 ∧ params.SERVO_MAX_US = 2500 ∧
  params.RELAY_INDEX = 19 ∧ params.DIO_INDICES = (20, 21) ∧ params.TOUCH_BASE = 22 ∧ params.TOUCH_COUNT = 6 ∧
  params.CURRENT_INDEX = 28 ∧ params.VOLTAGE_INDEX = 29 ∧ params.RGB_BASE = 32 ∧ params.RGB_COUNT = 6 ∧
  params.TOUCH_SCALE = 310303 / 1000 ∧ params.VOLT_SCALE = 310303 / 1000 ∧ params.CURRENT_LSB = 814 / 10000 ∧
  params.CURRENT_ZERO = 512 ∧ params.RGB_NIBBLE_SHIFT = 4 ∧ params.ADDR_COUNT = 38

/-! ### Marker bytes -/

/-- R122 with R121 and R135: the SET marker in every phase, and everything it leaves unchanged. -/
def Obligations.SetMarkerStartsSetFrame : Prop :=
  ∀ s : State, exec .set s = .next
    { s with
      phase := .awaitStartIndex, kind := some .set, startIndex := none, count := none,
      values := List.replicate params.MAX_VALUES none,
      trace := s.trace ++ abortEvents s.phase params.SET_MARKER }

/-- R123 with R121 and R135: the GET marker in every phase, and everything it leaves unchanged. -/
def Obligations.GetMarkerStartsGetFrame : Prop :=
  ∀ s : State, exec .get s = .next
    { s with
      phase := .awaitStartIndex, kind := some .get, startIndex := none, count := none,
      values := List.replicate params.MAX_VALUES none,
      trace := s.trace ++ abortEvents s.phase params.GET_MARKER }

/-- R124 with R121, R135, and R228 item 1: an unrecognised marker in every phase, the abort recorded before the framing
error, and everything it leaves unchanged. For a byte that is no unrecognised marker, which the decoder never gives here, that the
same rule runs is the model's choice (log 25). -/
def Obligations.UnrecognisedMarkerReturnsToIdle : Prop :=
  ∀ (b : Byte) (s : State), exec (.invalidMarker b) s = .next
    { s with
      phase := .idle, kind := none, startIndex := none, count := none,
      values := List.replicate params.MAX_VALUES none,
      trace := s.trace ++ abortEvents s.phase b ++ [.condition (.framingError b)] }

/-- R135, R62: a marker byte in any phase completes no packet, makes no call and emits nothing, and the bytes received for the old
frame are lost; a recognised marker starts a new frame, any other leaves the parser in `Idle`. -/
def Obligations.MarkerHasNoOutwardEffect : Prop :=
  ∀ (b : Byte), b.msb = true → ∀ s : State, ∃ t es,
    exec (decodeByte b) s = .next t ∧ t.trace = s.trace ++ es ∧
    (∀ e ∈ es, e.isCall = false ∧ e.isReady = false ∧ e.txByte = none) ∧
    t.output = s.output ∧ t.env = s.env ∧ t.input = s.input ∧
    t.phase = (if b = params.SET_MARKER ∨ b = params.GET_MARKER then .awaitStartIndex else .idle) ∧
    t.startIndex = none ∧ t.count = none ∧ t.values = List.replicate params.MAX_VALUES none

/-! ### Data bytes -/

/-- R125: a data byte in `Idle` is discarded with no state change. -/
def Obligations.StrayDataIsDiscarded : Prop :=
  ∀ (d : Group) (s : State), s.phase = .idle →
    exec (.data d) s = .next { s with trace := s.trace ++ [.condition (.strayData (d.setWidth 8))] }

/-- R126, R75: in `AwaitStartIndex` the whole data byte becomes `startIndex`. -/
def Obligations.StartIndexIsStored : Prop :=
  ∀ (d : Group) (s : State), s.phase = .awaitStartIndex →
    exec (.data d) s = .next { s with startIndex := some (d.setWidth INDEX_BITS), phase := .awaitCount }

/-- R127: a GET completes at its count byte, whatever the count, and the packet is dispatched in the same step (R190). -/
def Obligations.GetCompletesAtCount : Prop :=
  ∀ (d : Group) (s : State) (start : Index), s.phase = .awaitCount → s.kind = some .get → s.startIndex = some start →
    exec (.data d) s = .next (dispatch params { kind := .get, startIndex := start, count := d.setWidth COUNT_BITS, vals := [] }
      { s with
        phase := .idle, kind := none, startIndex := none, count := none,
        values := List.replicate params.MAX_VALUES none,
        trace := s.trace ++
          [.packetReady { kind := .get, startIndex := start, count := d.setWidth COUNT_BITS, vals := [] }] })

/-- R128, R191: a SET with count 0 completes at once and is dropped. -/
def Obligations.ZeroCountSetCompletesAndDrops : Prop :=
  ∀ (s : State) (start : Index), s.phase = .awaitCount → s.kind = some .set → s.startIndex = some start →
    exec (.data 0) s = .next
      { s with
        phase := .idle, kind := none, startIndex := none, count := none,
        values := List.replicate params.MAX_VALUES none,
        trace := s.trace ++
          [.packetReady { kind := .set, startIndex := start, count := 0, vals := [] },
           .condition (.malformedPacket .set start 0)] }

/-- R129: a SET with any other count goes on to its values. -/
def Obligations.SetCountBeginsValues : Prop :=
  ∀ (d : Group) (s : State), d ≠ 0 → s.phase = .awaitCount → s.kind = some .set →
    exec (.data d) s = .next { s with count := some (d.setWidth COUNT_BITS), phase := .awaitValueLow 0 }

/-- R130: the low group goes to its slot, bits 13..7 cleared; past the buffer nothing is stored (the
spec's decision D6 in R133, log 18). -/
def Obligations.LowGroupIsStored : Prop :=
  ∀ (d : Group) (s : State) (i : Byte), s.phase = .awaitValueLow i →
    exec (.data d) s = .next
      { s with
        phase := .awaitValueHigh i,
        values := if i.toNat < params.MAX_VALUES then s.values.set i.toNat (some (d.setWidth VALUE_BITS)) else s.values }

/-- R131: the high group is ORed in and the next pair awaited; past the buffer nothing is
stored (the spec's decision D6 in R133, log 18). -/
def Obligations.HighGroupContinuesFrame : Prop :=
  ∀ (d : Group) (s : State) (i : Byte) (c : Count), s.phase = .awaitValueHigh i → s.count = some c → i.toNat + 1 < c.toNat →
    (∀ v, i.toNat < params.MAX_VALUES → s.slot i.toNat = some v →
      exec (.data d) s = .next
        { s with
          phase := .awaitValueLow (i + 1),
          values := s.values.set i.toNat (some (v ||| (d.setWidth VALUE_BITS <<< PAYLOAD_BITS))) }) ∧
    (params.MAX_VALUES ≤ i.toNat → exec (.data d) s = .next { s with phase := .awaitValueLow (i + 1) })

/-- R132: the last byte of a SET frame completes the packet with the first `min(count, MAX_VALUES)` slots, the last high group
ORed into its own, and the packet is dispatched in the same step (R190). That a count above `MAX_VALUES` keeps the first
`MAX_VALUES` values is the spec's decision D6 in R133 (log 18). -/
def Obligations.LastHighGroupCompletesSet : Prop :=
  ∀ (d : Group) (s : State) (i : Byte) (c : Count) (start : Index) (old : Nat → Raw), s.phase = .awaitValueHigh i →
    s.count = some c → s.startIndex = some start → i.toNat + 1 = c.toNat →
    (∀ j, j < min c.toNat params.MAX_VALUES → s.slot j = some (old j)) →
    ∀ pkt : Packet,
      pkt = { kind := .set, startIndex := start, count := c,
              vals := (List.range (min c.toNat params.MAX_VALUES)).map fun j =>
                if j = i.toNat then old j ||| (d.setWidth VALUE_BITS <<< PAYLOAD_BITS) else old j } →
      exec (.data d) s = .next (dispatch params pkt
        { s with
          phase := .idle, kind := none, startIndex := none, count := none,
          values := List.replicate params.MAX_VALUES none,
          trace := s.trace ++ [.packetReady pkt] })

/-- R28 (its own inference): reading an unwritten field is a model fault, under that field's name: `kind` at the count byte,
`startIndex` at a count byte or a last high group that completes, `count` at every high group, the slot of a high group, and at the
last high group every slot of the packet, of which the first unwritten one is named. -/
def Obligations.UnwrittenFieldReadFaults : Prop :=
  ∀ (d : Group) (s : State),
    (s.phase = .awaitCount → s.kind = none → exec (.data d) s = .fault .unwrittenKind) ∧
    (s.phase = .awaitCount → s.kind = some .get → s.startIndex = none →
      exec (.data d) s = .fault .unwrittenStartIndex) ∧
    (d = 0 → s.phase = .awaitCount → s.kind = some .set → s.startIndex = none →
      exec (.data d) s = .fault .unwrittenStartIndex) ∧
    ∀ i, s.phase = .awaitValueHigh i →
      (i.toNat < params.MAX_VALUES → s.slot i.toNat = none →
        exec (.data d) s = .fault (.unwrittenValue i.toNat)) ∧
      ((i.toNat < params.MAX_VALUES → s.slot i.toNat ≠ none) →
        (s.count = none → exec (.data d) s = .fault .unwrittenCount) ∧
        ∀ c, s.count = some c → i.toNat + 1 = c.toNat →
          (s.startIndex = none → exec (.data d) s = .fault .unwrittenStartIndex) ∧
          (s.startIndex ≠ none → ∀ j, j < min c.toNat params.MAX_VALUES → s.slot j = none →
            (∀ k, k < j → s.slot k ≠ none) → exec (.data d) s = .fault (.unwrittenValue j)))

/-! ### Dispatcher -/

/-- R191, R222: a packet with an invalid count is dropped before anything else happens, and any other is dispatched by its
kind, whatever its `startIndex`. -/
def Obligations.OnlyValidCountsAreDispatched : Prop :=
  ∀ (p : Params) (pkt : Packet) (s : State),
    (pkt.count.toNat = 0 ∨ p.MAX_VALUES < pkt.count.toNat → dispatch p pkt s =
      { s with trace := s.trace ++ [.condition (.malformedPacket pkt.kind pkt.startIndex pkt.count)] }) ∧
    (1 ≤ pkt.count.toNat → pkt.count.toNat ≤ p.MAX_VALUES →
      (pkt.kind = .set → dispatch p pkt s = dispatchSet p pkt s) ∧
      (pkt.kind = .get → dispatch p pkt s = dispatchGet p pkt s))

/-- R192, R60: a valid SET writes `vals[i]` to index `startIndex + i` for `i` = 0 .. `count`-1, in that order, and emits
nothing. -/
def Obligations.SetWritesInIndexOrder : Prop :=
  ∀ (p : Params) (pkt : Packet) (s : State), pkt.kind = .set → 1 ≤ pkt.count.toNat → pkt.count.toNat ≤ p.MAX_VALUES →
    pkt.vals.length = pkt.count.toNat →
    dispatch p pkt s =
      (List.range pkt.count.toNat).foldl (fun st i => routerWrite p (pkt.startIndex.toNat + i) (pkt.vals.getD i 0) st) s ∧
    (dispatch p pkt s).output = s.output

/-- R193, R194, R60: a valid GET reads index `startIndex + i` for `i` = 0 .. `count`-1, in that order, and then emits one
response frame with the values in index order. -/
def Obligations.GetReadsThenResponds : Prop :=
  ∀ (p : Params) (pkt : Packet) (s : State), pkt.kind = .get → 1 ≤ pkt.count.toNat → pkt.count.toNat ≤ p.MAX_VALUES →
    ∀ got : List Raw × State,
      got = (List.range pkt.count.toNat).foldl
        (fun acc i => (acc.1 ++ [(routerRead p (pkt.startIndex.toNat + i) acc.2).1],
                       (routerRead p (pkt.startIndex.toNat + i) acc.2).2)) ([], s) →
      got.1.length = pkt.count.toNat ∧
      dispatch p pkt s =
        { got.2 with
          output := got.2.output ++ (p.GET_MARKER :: pkt.startIndex.setWidth 8 :: pkt.count.setWidth 8 :: valuePairs got.1),
          trace := got.2.trace ++
            (p.GET_MARKER :: pkt.startIndex.setWidth 8 :: pkt.count.setWidth 8 :: valuePairs got.1).map Event.tx }

/-- R28, R192, R194: the dispatch of any packet leaves the parser's fields and the input as they are and hands over no further
packet; that of a SET, or of a packet with an invalid count, leaves the environment's answers and the output too. -/
def Obligations.DispatchLeavesParser : Prop :=
  ∀ (p : Params) (pkt : Packet) (s : State), ∃ es, (dispatch p pkt s).trace = s.trace ++ es ∧
    (∀ e ∈ es, e.isReady = false) ∧
    (dispatch p pkt s).phase = s.phase ∧ (dispatch p pkt s).kind = s.kind ∧
    (dispatch p pkt s).startIndex = s.startIndex ∧ (dispatch p pkt s).count = s.count ∧
    (dispatch p pkt s).values = s.values ∧ (dispatch p pkt s).input = s.input ∧
    (pkt.kind = .set ∨ ¬ validCount p pkt.count →
      (dispatch p pkt s).env = s.env ∧ (dispatch p pkt s).output = s.output)

/-- R74, R197: a response frame has 3 + 2·count bytes, of which only the first has bit 7 set (R197's own
inference from R194). -/
def Obligations.ResponseFrameShape : Prop :=
  ∀ (p : Params), p.Valid → ∀ (start : Index) (count : Count) (vals : List Raw), start.toNat ≤ 127 → count.toNat ≤ 127 →
    vals.length = count.toNat →
    (respFrame p start count vals).length = 3 + 2 * count.toNat ∧
    ∃ tail, respFrame p start count vals = p.GET_MARKER :: tail ∧ p.GET_MARKER.msb = true ∧
      ∀ b ∈ tail, b.msb = false

/-- R54, R72, R76: the value pairs of a frame decode, pair by pair, to the values in index order. -/
def Obligations.ValuePairsCarryValues : Prop :=
  ∀ (vals : List Raw) (i : Nat), i < vals.length →
    ∃ lo hi, (valuePairs vals)[2 * i]? = some lo ∧ (valuePairs vals)[2 * i + 1]? = some hi ∧
      vals[i]? = some (decodeValue lo hi)

/-! ### Address map and router -/

/-- R52, R53: `resolve` gives exactly the row an index lies in; the order of the tests is irrelevant (channel numbers: the spec's
decision D8, log 13; the two-way lines 20 and 21: D9, log 14; an index above 255 is Unmapped: log 16). -/
def Obligations.ResolveIsTheRow : Prop :=
  ∀ (p : Params), p.Valid → ∀ (k : Nat) (e : Entry), resolve p k = e ↔ InRow p k e

/-- R50, R8: an index at or above `ADDR_COUNT` is Unmapped (`ADDR_COUNT` is R50's own inference; for an index above 255, which no
run reaches, that is log 16). The unmapped indices below `ADDR_COUNT` are in `ResolveIsTheRow`. -/
def Obligations.BeyondMapIsUnmapped : Prop :=
  ∀ (p : Params) (k : Nat), p.ADDR_COUNT ≤ k → resolve p k = .unmapped

/-- R50, R24, R25: what a step hands over as a packet has fields of 7 bits, and a packet that is dispatched names indices up to
`127 + MAX_VALUES - 1` only (how many values a packet of a larger count has: the spec's decision D6, log 18). -/
def Obligations.PacketFieldsAndIndicesBounded : Prop :=
  ∀ (d : Group) (s t : State) (es : List Event) (pkt : Packet), s.Inv params → exec (.data d) s = .next t →
    t.trace = s.trace ++ es → .packetReady pkt ∈ es →
    pkt.startIndex.toNat ≤ 127 ∧ pkt.count.toNat ≤ 127 ∧
    pkt.vals.length = (if pkt.kind = .set then min pkt.count.toNat params.MAX_VALUES else 0) ∧
    (validCount params pkt.count → ∀ i, i < pkt.count.toNat → pkt.startIndex.toNat + i ≤ 127 + params.MAX_VALUES - 1)

/-- R151: a servo index gets one call with its channel and the value clamped to the bounds (channel numbers: the spec's decision
D8; no failure of a write: D16). -/
def Obligations.ServoWriteClamps : Prop :=
  ∀ (p : Params), p.Valid → ∀ (ch : Nat) (v : Raw) (s : State), ch < p.SERVO_COUNT →
    ∃ us, routerWrite p (p.SERVO_BASE + ch) v s =
        { s with trace := s.trace ++ [.call (.setPulseWidthMicroseconds ch us)] } ∧
      (v.toNat < p.SERVO_MIN_US → us = p.SERVO_MIN_US) ∧
      (p.SERVO_MIN_US ≤ v.toNat → v.toNat ≤ p.SERVO_MAX_US → us = v.toNat) ∧
      (p.SERVO_MAX_US < v.toNat → us = p.SERVO_MAX_US)

/-- R152: the relay is driven high exactly by a nonzero 14-bit value (channel numbers: the spec's decision D8; no failure of a
write: D16). -/
def Obligations.RelayWriteDrivesLevel : Prop :=
  ∀ (p : Params), p.Valid → ∀ (v : Raw) (s : State),
    routerWrite p p.RELAY_INDEX v s = { s with trace := s.trace ++ [.call (.setLevel 0 (decide (v ≠ 0)))] }

/-- R153: digital I/O A1 and A2, channels 1 and 2 (the spec's decisions D8, D9, D16). -/
def Obligations.DigitalIOWriteDrivesLevel : Prop :=
  ∀ (p : Params), p.Valid → ∀ (v : Raw) (s : State),
    routerWrite p p.DIO_INDICES.1 v s = { s with trace := s.trace ++ [.call (.setLevel 1 (decide (v ≠ 0)))] } ∧
    routerWrite p p.DIO_INDICES.2 v s = { s with trace := s.trace ++ [.call (.setLevel 2 (decide (v ≠ 0)))] }

/-- R154 at the default shift: each channel is its nibble times 16, and bits 13..12 do not matter (the spec's
decisions D8 and D11). -/
def Obligations.RgbWriteSplitsNibbles : Prop :=
  ∀ (ch : Nat) (v : Raw) (s : State), ch < params.RGB_COUNT →
    ∃ r g b : Byte, routerWrite params (params.RGB_BASE + ch) v s =
        { s with trace := s.trace ++ [.call (.setColor ch r g b)] } ∧
      r.toNat = v.toNat / 256 % 16 * 16 ∧ g.toNat = v.toNat / 16 % 16 * 16 ∧ b.toNat = v.toNat % 16 * 16

/-- R155: a sensor index ignores every value. -/
def Obligations.SensorWriteIsIgnored : Prop :=
  ∀ (p : Params), p.Valid → ∀ (k : Nat) (v : Raw) (s : State),
    (p.TOUCH_BASE ≤ k ∧ k < p.TOUCH_BASE + p.TOUCH_COUNT) ∨ k = p.CURRENT_INDEX ∨ k = p.VOLTAGE_INDEX →
    routerWrite p k v s = { s with trace := s.trace ++ [.condition (.readOnlyWrite k)] }

/-- R156, R166, R223: an index outside every range ignores a write and reads 0, with no call (of an index above 255,
which no run reaches, that is log 16). -/
def Obligations.UnmappedIndexIsInert : Prop :=
  ∀ (p : Params), p.Valid → ∀ (k : Nat) (v : Raw) (s : State), InRow p k .unmapped →
    routerWrite p k v s = { s with trace := s.trace ++ [.condition (.addressMiss k .write)] } ∧
    routerRead p k s = (0, { s with trace := s.trace ++ [.condition (.addressMiss k .read)] })

/-- R165: an RGB index reads 0, with no call (the spec's decision D10). -/
def Obligations.RgbReadsZero : Prop :=
  ∀ (p : Params), p.Valid → ∀ (ch : Nat) (s : State), ch < p.RGB_COUNT →
    routerRead p (p.RGB_BASE + ch) s =
      (0, { s with trace := s.trace ++ [.condition (.writeOnlyRead (p.RGB_BASE + ch))] })

/-- R160, R167, R169: a servo index makes one call; its answer is reduced to 14 bits, a failure reads 0
(the spec's decisions D8 for the channel, log 13; D13, D14, D15). -/
def Obligations.ServoReadReducesAnswer : Prop :=
  ∀ (p : Params), p.Valid → ∀ (ch : Nat) (s : State) (a : Reply Nat),
    ch < p.SERVO_COUNT → a = s.env.nextServo →
    routerRead p (p.SERVO_BASE + ch) s =
      match a with
      | .ok us => (BitVec.ofNat VALUE_BITS us,
          { s with env := s.env.dropServo,
                   trace := s.trace ++ [.call (.getPulseWidthMicroseconds ch (.ok us))] })
      | .fail => (0,
          { s with env := s.env.dropServo,
                   trace := s.trace ++ [.call (.getPulseWidthMicroseconds ch .fail),
                                        .condition (.peripheralFailure (p.SERVO_BASE + ch))] })

/-- R161, R167: a digital index makes one call; high reads 1, low and a failure read 0 (the spec's
decisions D8 for the channels, log 13; D9 for indices 20 and 21, log 14; D15 for the failure). -/
def Obligations.DigitalReadGivesLevel : Prop :=
  ∀ (p : Params), p.Valid → ∀ (k ch : Nat) (s : State) (a : Reply Bool),
    (ch = 0 ∧ k = p.RELAY_INDEX) ∨ (ch = 1 ∧ k = p.DIO_INDICES.1) ∨ (ch = 2 ∧ k = p.DIO_INDICES.2) →
    a = s.env.nextDigital →
    routerRead p k s =
      match a with
      | .ok true => (1,
          { s with env := s.env.dropDigital, trace := s.trace ++ [.call (.getLevel ch (.ok true))] })
      | .ok false => (0,
          { s with env := s.env.dropDigital, trace := s.trace ++ [.call (.getLevel ch (.ok false))] })
      | .fail => (0,
          { s with env := s.env.dropDigital,
                   trace := s.trace ++ [.call (.getLevel ch .fail), .condition (.peripheralFailure k)] })

/-- R162, R167: a touch index makes one call; the reading goes through `convTouch`, a failure reads 0 (the
spec's decisions D8 for the channel, log 13; D12, D15). -/
def Obligations.TouchReadConverts : Prop :=
  ∀ (p : Params), p.Valid → ∀ (ch : Nat) (s : State) (a : Reply Reading),
    ch < p.TOUCH_COUNT → a = s.env.nextTouch →
    routerRead p (p.TOUCH_BASE + ch) s =
      match a with
      | .ok volts => (p.convTouch volts,
          { s with env := s.env.dropTouch, trace := s.trace ++ [.call (.readVoltage ch (.ok volts))] })
      | .fail => (0,
          { s with env := s.env.dropTouch,
                   trace := s.trace ++ [.call (.readVoltage ch .fail),
                                        .condition (.peripheralFailure (p.TOUCH_BASE + ch))] })

/-- R163, R167: the current index makes one call; the reading goes through `convCurrent`, a failure reads 0 (the
spec's decisions D12, D15). -/
def Obligations.CurrentReadConverts : Prop :=
  ∀ (p : Params), p.Valid → ∀ (s : State) (a : Reply Reading),
    a = s.env.nextCurrent →
    routerRead p p.CURRENT_INDEX s =
      match a with
      | .ok amps => (p.convCurrent amps,
          { s with env := s.env.dropCurrent, trace := s.trace ++ [.call (.readAmps (.ok amps))] })
      | .fail => (0,
          { s with env := s.env.dropCurrent,
                   trace := s.trace ++ [.call (.readAmps .fail), .condition (.peripheralFailure p.CURRENT_INDEX)] })

/-- R164, R167: the voltage index makes one call; the reading goes through `convVolt`, a failure reads 0 (the
spec's decisions D12, D15). -/
def Obligations.VoltageReadConverts : Prop :=
  ∀ (p : Params), p.Valid → ∀ (s : State) (a : Reply Reading),
    a = s.env.nextVoltage →
    routerRead p p.VOLTAGE_INDEX s =
      match a with
      | .ok volts => (p.convVolt volts,
          { s with env := s.env.dropVoltage, trace := s.trace ++ [.call (.readVolts (.ok volts))] })
      | .fail => (0,
          { s with env := s.env.dropVoltage,
                   trace := s.trace ++ [.call (.readVolts .fail), .condition (.peripheralFailure p.VOLTAGE_INDEX)] })

/-- R7, R11, R232: the environment's answers are used up in order, one a call, each interface from its own queue; past a queue's
end the answer is a free value and the draw is counted (log 4). -/
def Obligations.EnvironmentAnswersInOrder : Prop :=
  ∀ e : Environment,
    (∀ a rest, e.servo = a :: rest → e.nextServo = a ∧ e.dropServo = { e with servo := rest }) ∧
    (e.servo = [] → e.nextServo = freeServo e.draws ∧ e.dropServo = { e with draws := e.draws + 1 }) ∧
    (∀ a rest, e.digital = a :: rest → e.nextDigital = a ∧ e.dropDigital = { e with digital := rest }) ∧
    (e.digital = [] → e.nextDigital = freeDigital e.draws ∧ e.dropDigital = { e with draws := e.draws + 1 }) ∧
    (∀ a rest, e.touch = a :: rest → e.nextTouch = a ∧ e.dropTouch = { e with touch := rest }) ∧
    (e.touch = [] → e.nextTouch = freeTouch e.draws ∧ e.dropTouch = { e with draws := e.draws + 1 }) ∧
    (∀ a rest, e.current = a :: rest → e.nextCurrent = a ∧ e.dropCurrent = { e with current := rest }) ∧
    (e.current = [] → e.nextCurrent = freeCurrent e.draws ∧ e.dropCurrent = { e with draws := e.draws + 1 }) ∧
    (∀ a rest, e.voltage = a :: rest → e.nextVoltage = a ∧ e.dropVoltage = { e with voltage := rest }) ∧
    (e.voltage = [] → e.nextVoltage = freeVoltage e.draws ∧ e.dropVoltage = { e with draws := e.draws + 1 })

/-- R58: every GET element calls the capability anew: two reads of one servo index in a row take two answers, and neither
depends on the other or on a write in between (the spec's decisions D14, D31). -/
def Obligations.ReadsAreNotCached : Prop :=
  ∀ (p : Params), p.Valid → ∀ (ch : Nat) (v : Raw) (s : State) (x y : Nat) (rest : List (Reply Nat)),
    ch < p.SERVO_COUNT → s.env.servo = .ok x :: .ok y :: rest →
    (routerRead p (p.SERVO_BASE + ch) s).1 = BitVec.ofNat VALUE_BITS x ∧
    (routerRead p (p.SERVO_BASE + ch) (routerWrite p (p.SERVO_BASE + ch) v (routerRead p (p.SERVO_BASE + ch) s).2)).1 = BitVec.ofNat VALUE_BITS y

/-- R168: the reference conversions are R168's formulas over the rationals, for every scale, and the machine's conversions are
those with R8's constants (the spec's decisions D12, D13); `wrap14` is R10's: mod 2^14, with a result in 0..16383
for a negative number too. -/
def Obligations.ConversionsAreRationalFormulas : Prop :=
  (∀ z : Int, ((wrap14 z).toNat : Int) = z % 16384) ∧
  (∀ scale v : Rat, referenceVolts scale v = wrap14 (roundHalfAway (v * scale))) ∧
  (∀ (lsb a : Rat) (offset : Nat), referenceAmps lsb offset a = wrap14 (roundHalfAway (a / lsb) + offset)) ∧
  (∀ v : Reading, params.convTouch v = wrap14 (roundHalfAway (v * (310303 / 1000)))) ∧
  (∀ v : Reading, params.convVolt v = wrap14 (roundHalfAway (v * (310303 / 1000)))) ∧
  ∀ a : Reading, params.convCurrent a = wrap14 (roundHalfAway (a / (814 / 10000)) + 512)

/-! ### The whole machine -/

/-- R139, R198: on every byte and in every state the meanings answer what the spec's one function of a byte answers. In states that
no run reaches both rest on more than those rules: where an unwritten packet field is read, on the fault of R28 (the spec's decision
D7, log 2), and after slot 255 on the wrap of the slot register (log 3). -/
def Obligations.MeaningsEqualReferenceStep : Prop :=
  ∀ (b : Byte) (s : State), exec (decodeByte b) s = Reference.step params s b

/-- R34 (the spec's own inference) at the reset state. -/
def Obligations.ReachableShapeAtReset : Prop :=
  State.reset.Inv params

/-- R34, R28: from every state of R34's shape a step answers a next state, of that shape: no step reads an unwritten
field (the spec's own inference; the waiting step is log 5, the reset event as a step log 6). -/
def Obligations.StepKeepsReachableShape : Prop :=
  ∀ s : State, s.Inv params → ∃ t, step s = .next t ∧ t.Inv params

/-- R34, R28, R263: from the reset state, whatever bytes and resets the host sends and whatever the environment answers, every
run of steps reads no unwritten field and ends in a state of R34's shape (R34 and R28's "No reachable step reads one" are the spec's
own inferences; steps that wait past the input are log 5, and reset as an input item is log 6). -/
def Obligations.EveryRunKeepsReachableShape : Prop :=
  ∀ (n : Nat) (input : List Input) (env : Environment),
    ∃ t, runSteps n { State.reset with input := input, env := env } = .next t ∧ t.Inv params

/-- R72, R77, R133, R191, R121: from any state whatever, a whole SET frame of `c` values, 0 to 127, takes 3 + 2·c steps, hands
over the packet with the first `MAX_VALUES` values, and ends with what the dispatcher makes of it (what a count above
`MAX_VALUES` does: the spec's decision D6 in R133, log 18). -/
def Obligations.SetFrameRunsToDispatch : Prop :=
  ∀ (s : State) (start : Group) (vals : List Raw) (rest : List Input), vals.length ≤ 127 →
    s.input = (setFrame params start vals).map Input.byte ++ rest →
    ∀ pkt : Packet,
      pkt = { kind := .set, startIndex := start.setWidth INDEX_BITS, count := BitVec.ofNat COUNT_BITS vals.length,
              vals := vals.take params.MAX_VALUES } →
      runSteps (3 + 2 * vals.length) s = .next (dispatch params pkt
        { s with
          phase := .idle, kind := none, startIndex := none, count := none,
          values := List.replicate params.MAX_VALUES none, input := rest,
          trace := s.trace ++ abortEvents s.phase params.SET_MARKER ++ [.packetReady pkt] })

/-- R73, R191, R121: from any state whatever, a whole GET frame takes three steps, hands over the packet, and ends with what the
dispatcher makes of it. -/
def Obligations.GetFrameRunsToDispatch : Prop :=
  ∀ (s : State) (start c : Group) (rest : List Input), s.input = (getFrame params start c).map Input.byte ++ rest →
    ∀ pkt : Packet,
      pkt = { kind := .get, startIndex := start.setWidth INDEX_BITS, count := c.setWidth COUNT_BITS, vals := [] } →
      runSteps 3 s = .next (dispatch params pkt
        { s with
          phase := .idle, kind := none, startIndex := none, count := none,
          values := List.replicate params.MAX_VALUES none, input := rest,
          trace := s.trace ++ abortEvents s.phase params.GET_MARKER ++ [.packetReady pkt] })

/-- R259: a response fed back into the input is dispatched as a GET, and its value bytes are discarded (the
spec's own inference). -/
def Obligations.ResponseLoopsBackAsGet : Prop :=
  ∀ (s : State) (start c : Group) (vals : List Raw) (rest : List Input), s.phase = .idle →
    s.input = (respFrame params (start.setWidth INDEX_BITS) (c.setWidth COUNT_BITS) vals).map Input.byte ++ rest →
    ∀ pkt : Packet,
      pkt = { kind := .get, startIndex := start.setWidth INDEX_BITS, count := c.setWidth COUNT_BITS, vals := [] } →
      ∃ t u, t = dispatch params pkt
          { s with
            kind := none, startIndex := none, count := none, values := List.replicate params.MAX_VALUES none,
            input := (valuePairs vals).map Input.byte ++ rest, trace := s.trace ++ [.packetReady pkt] } ∧
        runSteps (3 + 2 * vals.length) s = .next u ∧
        u = { t with
              input := rest,
              trace := t.trace ++ (valuePairs vals).map fun b => Event.condition (.strayData b) }

/-- R137: from `Idle`, data bytes alone complete no packet, make no call and leave the core as it was (that the phase is
`Idle` at the start is R137's own inference). -/
def Obligations.NoMarkerNoPacket : Prop :=
  ∀ (s : State) (ds : List Group) (rest : List Input), s.phase = .idle →
    s.input = ds.map (fun d => Input.byte (d.setWidth 8)) ++ rest →
    runSteps ds.length s = .next
      { s with
        input := rest,
        trace := s.trace ++ ds.map fun d => Event.condition (.strayData (d.setWidth 8)) }

/-- R62, R135, R191: a step of an instruction makes a capability call or emits a byte only when it also completes a packet with
a valid count; its input and the observation so far stay. -/
def Obligations.OnlyValidPacketsActOutside : Prop :=
  ∀ (i : Instr) (s t : State), exec i s = .next t → ∃ es, t.trace = s.trace ++ es ∧ t.input = s.input ∧
    ((∃ e ∈ es, e.isCall = true ∨ e.txByte.isSome = true) ∨ t.output ≠ s.output ∨ t.env ≠ s.env →
      ∃ d pkt, i = .data d ∧ .packetReady pkt ∈ es ∧ validCount params pkt.count)

/-- R195, R31: the bytes a step appends to the output stream are the `Tx` events it makes, in order; a GET with a valid
count appends one response frame, and nothing else appends any. -/
def Obligations.OutputIsExactlyTheResponses : Prop :=
  ∀ (i : Instr) (s t : State), exec i s = .next t → ∃ es, t.trace = s.trace ++ es ∧
    t.output = s.output ++ es.filterMap Event.txByte ∧
    (∀ pkt, .packetReady pkt ∈ es → pkt.kind = .get → validCount params pkt.count →
      ∃ resp : List Raw, resp.length = pkt.count.toNat ∧
        es.filterMap Event.txByte = respFrame params pkt.startIndex pkt.count resp) ∧
    ((∀ pkt, .packetReady pkt ∈ es → pkt.kind = .set ∨ ¬ validCount params pkt.count) →
      es.filterMap Event.txByte = [])

/-- R32: after a recognised marker nothing of the old frame is left: two states that differ in their frame in progress
only behave alike from then on. -/
def Obligations.MarkerForgetsOldFrame : Prop :=
  ∀ (b : Byte) (s1 s2 : State), b = params.SET_MARKER ∨ b = params.GET_MARKER →
    s1.output = s2.output → s1.env = s2.env → s1.input = s2.input →
    ∃ t1 t2, exec (decodeByte b) s1 = .next t1 ∧ exec (decodeByte b) s2 = .next t2 ∧
      t1 = { t2 with trace := t1.trace } ∧ t1.phase = .awaitStartIndex ∧
      t1.startIndex = none ∧ t1.count = none ∧ t1.values = List.replicate params.MAX_VALUES none
end

