-- ==== Sys2Proof/Laws/State.lean ====
section
/-!
SUPPORT. One lemma per field per state update, so that no proof unfolds a record update.
-/

namespace Sys2Proof.Machine

open Sys2Proof.Config

/-! `record` -/

@[simp] theorem State.record_phase (s : State) (e : Event) : (s.record e).phase = s.phase :=
  rfl

@[simp] theorem State.record_kind (s : State) (e : Event) : (s.record e).kind = s.kind :=
  rfl

@[simp] theorem State.record_startIndex (s : State) (e : Event) : (s.record e).startIndex = s.startIndex :=
  rfl

@[simp] theorem State.record_count (s : State) (e : Event) : (s.record e).count = s.count :=
  rfl

@[simp] theorem State.record_values (s : State) (e : Event) : (s.record e).values = s.values :=
  rfl

@[simp] theorem State.record_output (s : State) (e : Event) : (s.record e).output = s.output :=
  rfl

@[simp] theorem State.record_input (s : State) (e : Event) : (s.record e).input = s.input :=
  rfl

@[simp] theorem State.record_env (s : State) (e : Event) : (s.record e).env = s.env :=
  rfl

@[simp] theorem State.record_trace (s : State) (e : Event) : (s.record e).trace = s.trace ++ [e] :=
  rfl

/-! `call` -/

@[simp] theorem State.call_phase (s : State) (c : CapCall) : (s.call c).phase = s.phase :=
  rfl

@[simp] theorem State.call_kind (s : State) (c : CapCall) : (s.call c).kind = s.kind :=
  rfl

@[simp] theorem State.call_startIndex (s : State) (c : CapCall) : (s.call c).startIndex = s.startIndex :=
  rfl

@[simp] theorem State.call_count (s : State) (c : CapCall) : (s.call c).count = s.count :=
  rfl

@[simp] theorem State.call_values (s : State) (c : CapCall) : (s.call c).values = s.values :=
  rfl

@[simp] theorem State.call_output (s : State) (c : CapCall) : (s.call c).output = s.output :=
  rfl

@[simp] theorem State.call_input (s : State) (c : CapCall) : (s.call c).input = s.input :=
  rfl

@[simp] theorem State.call_env (s : State) (c : CapCall) : (s.call c).env = s.env :=
  rfl

@[simp] theorem State.call_trace (s : State) (c : CapCall) : (s.call c).trace = s.trace ++ [.call c] :=
  rfl

/-! `raise` -/

@[simp] theorem State.raise_phase (s : State) (c : Condition) : (s.raise c).phase = s.phase :=
  rfl

@[simp] theorem State.raise_kind (s : State) (c : Condition) : (s.raise c).kind = s.kind :=
  rfl

@[simp] theorem State.raise_startIndex (s : State) (c : Condition) : (s.raise c).startIndex = s.startIndex :=
  rfl

@[simp] theorem State.raise_count (s : State) (c : Condition) : (s.raise c).count = s.count :=
  rfl

@[simp] theorem State.raise_values (s : State) (c : Condition) : (s.raise c).values = s.values :=
  rfl

@[simp] theorem State.raise_output (s : State) (c : Condition) : (s.raise c).output = s.output :=
  rfl

@[simp] theorem State.raise_input (s : State) (c : Condition) : (s.raise c).input = s.input :=
  rfl

@[simp] theorem State.raise_env (s : State) (c : Condition) : (s.raise c).env = s.env :=
  rfl

@[simp] theorem State.raise_trace (s : State) (c : Condition) : (s.raise c).trace = s.trace ++ [.condition c] :=
  rfl

/-! `tx` -/

@[simp] theorem State.tx_phase (s : State) (b : Byte) : (s.tx b).phase = s.phase :=
  rfl

@[simp] theorem State.tx_kind (s : State) (b : Byte) : (s.tx b).kind = s.kind :=
  rfl

@[simp] theorem State.tx_startIndex (s : State) (b : Byte) : (s.tx b).startIndex = s.startIndex :=
  rfl

@[simp] theorem State.tx_count (s : State) (b : Byte) : (s.tx b).count = s.count :=
  rfl

@[simp] theorem State.tx_values (s : State) (b : Byte) : (s.tx b).values = s.values :=
  rfl

@[simp] theorem State.tx_output (s : State) (b : Byte) : (s.tx b).output = s.output ++ [b] :=
  rfl

@[simp] theorem State.tx_input (s : State) (b : Byte) : (s.tx b).input = s.input :=
  rfl

@[simp] theorem State.tx_env (s : State) (b : Byte) : (s.tx b).env = s.env :=
  rfl

@[simp] theorem State.tx_trace (s : State) (b : Byte) : (s.tx b).trace = s.trace ++ [.tx b] :=
  rfl

/-! `clearPacket` -/

@[simp] theorem State.clearPacket_phase (s : State) (p : Params) : (s.clearPacket p).phase = s.phase :=
  rfl

@[simp] theorem State.clearPacket_kind (s : State) (p : Params) : (s.clearPacket p).kind = none :=
  rfl

@[simp] theorem State.clearPacket_startIndex (s : State) (p : Params) : (s.clearPacket p).startIndex = none :=
  rfl

@[simp] theorem State.clearPacket_count (s : State) (p : Params) : (s.clearPacket p).count = none :=
  rfl

@[simp] theorem State.clearPacket_values (s : State) (p : Params) :
    (s.clearPacket p).values = List.replicate p.MAX_VALUES none :=
  rfl

@[simp] theorem State.clearPacket_output (s : State) (p : Params) : (s.clearPacket p).output = s.output :=
  rfl

@[simp] theorem State.clearPacket_input (s : State) (p : Params) : (s.clearPacket p).input = s.input :=
  rfl

@[simp] theorem State.clearPacket_env (s : State) (p : Params) : (s.clearPacket p).env = s.env :=
  rfl

@[simp] theorem State.clearPacket_trace (s : State) (p : Params) : (s.clearPacket p).trace = s.trace :=
  rfl

/-! `applyReset` -/

@[simp] theorem State.applyReset_phase (s : State) (p : Params) : (s.applyReset p).phase = .idle :=
  rfl

@[simp] theorem State.applyReset_kind (s : State) (p : Params) : (s.applyReset p).kind = none :=
  rfl

@[simp] theorem State.applyReset_startIndex (s : State) (p : Params) : (s.applyReset p).startIndex = none :=
  rfl

@[simp] theorem State.applyReset_count (s : State) (p : Params) : (s.applyReset p).count = none :=
  rfl

@[simp] theorem State.applyReset_values (s : State) (p : Params) :
    (s.applyReset p).values = List.replicate p.MAX_VALUES none :=
  rfl

@[simp] theorem State.applyReset_output (s : State) (p : Params) : (s.applyReset p).output = [] :=
  rfl

@[simp] theorem State.applyReset_input (s : State) (p : Params) : (s.applyReset p).input = s.input :=
  rfl

@[simp] theorem State.applyReset_env (s : State) (p : Params) : (s.applyReset p).env = s.env :=
  rfl

@[simp] theorem State.applyReset_trace (s : State) (p : Params) : (s.applyReset p).trace = s.trace :=
  rfl

/-! `wait` -/

@[simp] theorem State.wait_phase (s : State) : (s.wait).phase = s.phase :=
  rfl

@[simp] theorem State.wait_kind (s : State) : (s.wait).kind = s.kind :=
  rfl

@[simp] theorem State.wait_startIndex (s : State) : (s.wait).startIndex = s.startIndex :=
  rfl

@[simp] theorem State.wait_count (s : State) : (s.wait).count = s.count :=
  rfl

@[simp] theorem State.wait_values (s : State) : (s.wait).values = s.values :=
  rfl

@[simp] theorem State.wait_output (s : State) : (s.wait).output = s.output :=
  rfl

@[simp] theorem State.wait_input (s : State) : (s.wait).input = s.input :=
  rfl

@[simp] theorem State.wait_env (s : State) : (s.wait).env = s.env :=
  rfl

@[simp] theorem State.wait_trace (s : State) : (s.wait).trace = s.trace :=
  rfl

/-! `setInput` -/

@[simp] theorem State.setInput_phase (s : State) (rest : List Input) : (s.setInput rest).phase = s.phase :=
  rfl

@[simp] theorem State.setInput_kind (s : State) (rest : List Input) : (s.setInput rest).kind = s.kind :=
  rfl

@[simp] theorem State.setInput_startIndex (s : State) (rest : List Input) :
    (s.setInput rest).startIndex = s.startIndex :=
  rfl

@[simp] theorem State.setInput_count (s : State) (rest : List Input) : (s.setInput rest).count = s.count :=
  rfl

@[simp] theorem State.setInput_values (s : State) (rest : List Input) : (s.setInput rest).values = s.values :=
  rfl

@[simp] theorem State.setInput_output (s : State) (rest : List Input) : (s.setInput rest).output = s.output :=
  rfl

@[simp] theorem State.setInput_input (s : State) (rest : List Input) : (s.setInput rest).input = rest :=
  rfl

@[simp] theorem State.setInput_env (s : State) (rest : List Input) : (s.setInput rest).env = s.env :=
  rfl

@[simp] theorem State.setInput_trace (s : State) (rest : List Input) : (s.setInput rest).trace = s.trace :=
  rfl

/-! `readCall` -/

@[simp] theorem State.readCall_phase (s : State) (c : CapCall) (e : Environment) : (s.readCall c e).phase = s.phase :=
  rfl

@[simp] theorem State.readCall_kind (s : State) (c : CapCall) (e : Environment) : (s.readCall c e).kind = s.kind :=
  rfl

@[simp] theorem State.readCall_startIndex (s : State) (c : CapCall) (e : Environment) :
    (s.readCall c e).startIndex = s.startIndex :=
  rfl

@[simp] theorem State.readCall_count (s : State) (c : CapCall) (e : Environment) : (s.readCall c e).count = s.count :=
  rfl

@[simp] theorem State.readCall_values (s : State) (c : CapCall) (e : Environment) :
    (s.readCall c e).values = s.values :=
  rfl

@[simp] theorem State.readCall_output (s : State) (c : CapCall) (e : Environment) :
    (s.readCall c e).output = s.output :=
  rfl

@[simp] theorem State.readCall_input (s : State) (c : CapCall) (e : Environment) : (s.readCall c e).input = s.input :=
  rfl

@[simp] theorem State.readCall_env (s : State) (c : CapCall) (e : Environment) : (s.readCall c e).env = e :=
  rfl

@[simp] theorem State.readCall_trace (s : State) (c : CapCall) (e : Environment) :
    (s.readCall c e).trace = s.trace ++ [.call c] :=
  rfl

/-! `writeSlot` -/

@[simp] theorem State.writeSlot_phase (s : State) (j : Nat) (v : Raw) : (s.writeSlot j v).phase = s.phase :=
  rfl

@[simp] theorem State.writeSlot_kind (s : State) (j : Nat) (v : Raw) : (s.writeSlot j v).kind = s.kind :=
  rfl

@[simp] theorem State.writeSlot_startIndex (s : State) (j : Nat) (v : Raw) :
    (s.writeSlot j v).startIndex = s.startIndex :=
  rfl

@[simp] theorem State.writeSlot_count (s : State) (j : Nat) (v : Raw) : (s.writeSlot j v).count = s.count :=
  rfl

@[simp] theorem State.writeSlot_values (s : State) (j : Nat) (v : Raw) :
    (s.writeSlot j v).values = s.values.set j (some v) :=
  rfl

@[simp] theorem State.writeSlot_output (s : State) (j : Nat) (v : Raw) : (s.writeSlot j v).output = s.output :=
  rfl

@[simp] theorem State.writeSlot_input (s : State) (j : Nat) (v : Raw) : (s.writeSlot j v).input = s.input :=
  rfl

@[simp] theorem State.writeSlot_env (s : State) (j : Nat) (v : Raw) : (s.writeSlot j v).env = s.env :=
  rfl

@[simp] theorem State.writeSlot_trace (s : State) (j : Nat) (v : Raw) : (s.writeSlot j v).trace = s.trace :=
  rfl

/-! `packetReady` -/

@[simp] theorem State.packetReady_phase (s : State) (p : Params) (pkt : Packet) :
    (s.packetReady p pkt).phase = .idle :=
  rfl

@[simp] theorem State.packetReady_kind (s : State) (p : Params) (pkt : Packet) : (s.packetReady p pkt).kind = none :=
  rfl

@[simp] theorem State.packetReady_startIndex (s : State) (p : Params) (pkt : Packet) :
    (s.packetReady p pkt).startIndex = none :=
  rfl

@[simp] theorem State.packetReady_count (s : State) (p : Params) (pkt : Packet) :
    (s.packetReady p pkt).count = none :=
  rfl

@[simp] theorem State.packetReady_values (s : State) (p : Params) (pkt : Packet) :
    (s.packetReady p pkt).values = List.replicate p.MAX_VALUES none :=
  rfl

@[simp] theorem State.packetReady_output (s : State) (p : Params) (pkt : Packet) :
    (s.packetReady p pkt).output = s.output :=
  rfl

@[simp] theorem State.packetReady_input (s : State) (p : Params) (pkt : Packet) :
    (s.packetReady p pkt).input = s.input :=
  rfl

@[simp] theorem State.packetReady_env (s : State) (p : Params) (pkt : Packet) : (s.packetReady p pkt).env = s.env :=
  rfl

@[simp] theorem State.packetReady_trace (s : State) (p : Params) (pkt : Packet) :
    (s.packetReady p pkt).trace = s.trace ++ [.packetReady pkt] :=
  rfl

/-! `startFrame` -/

@[simp] theorem startFrame_phase (s : State) (k : Kind) : (startFrame k s).phase = .awaitStartIndex :=
  rfl

@[simp] theorem startFrame_kind (s : State) (k : Kind) : (startFrame k s).kind = some k :=
  rfl

@[simp] theorem startFrame_startIndex (s : State) (k : Kind) : (startFrame k s).startIndex = s.startIndex :=
  rfl

@[simp] theorem startFrame_count (s : State) (k : Kind) : (startFrame k s).count = s.count :=
  rfl

@[simp] theorem startFrame_values (s : State) (k : Kind) : (startFrame k s).values = s.values :=
  rfl

@[simp] theorem startFrame_output (s : State) (k : Kind) : (startFrame k s).output = s.output :=
  rfl

@[simp] theorem startFrame_input (s : State) (k : Kind) : (startFrame k s).input = s.input :=
  rfl

@[simp] theorem startFrame_env (s : State) (k : Kind) : (startFrame k s).env = s.env :=
  rfl

@[simp] theorem startFrame_trace (s : State) (k : Kind) : (startFrame k s).trace = s.trace :=
  rfl

end Sys2Proof.Machine
end

