-- ==== Sys2Proof/Laws/Ops.lean ====
section
/-!
SUPPORT. What each shared operation does, said once: the packet registers, the value buffer, the output stream.
-/

namespace Sys2Proof.Machine

open Sys2Proof.Config

/-- Two states are equal when all their fields are. -/
theorem State.ext_fields {s t : State} (hphase : s.phase = t.phase) (hkind : s.kind = t.kind)
    (hstart : s.startIndex = t.startIndex) (hcount : s.count = t.count) (hvalues : s.values = t.values)
    (houtput : s.output = t.output) (hinput : s.input = t.input) (henv : s.env = t.env) (htrace : s.trace = t.trace) :
    s = t := by
  cases s; cases t; simp_all

/-- `txAll` appends its bytes to the output stream and as many `Tx` events to the observation, and does nothing else. -/
theorem State.txAll_eq (bs : List Byte) (s : State) :
    s.txAll bs = { s with output := s.output ++ bs, trace := s.trace ++ bs.map Event.tx } := by
  induction bs generalizing s with
  | nil => simp [State.txAll]
  | cons b bs ih => simp [State.txAll, ih, State.tx]

/-- A slot after a write. -/
theorem State.slot_writeSlot (s : State) (i j : Nat) (v : Raw) (hi : i < s.values.length) :
    (s.writeSlot i v).slot j = if j = i then some v else s.slot j := by
  unfold State.slot
  rcases eq_or_ne j i with rfl | h
  · simp [hi]
  · simp [h, List.getElem?_set_ne (Ne.symm h)]

/-- A written slot lies inside the buffer. -/
theorem State.lt_length_of_slot {s : State} {j : Nat} {v : Raw} (h : s.slot j = some v) : j < s.values.length := by
  unfold State.slot at h
  by_contra hj
  simp [List.getElem?_eq_none (Nat.le_of_not_lt hj)] at h

/-- Reading a slot succeeds exactly on a written one. -/
theorem State.readSlot_ok (s : State) (j : Nat) (v : Raw) : s.readSlot j = .ok v ↔ s.slot j = some v := by
  unfold State.readSlot
  cases s.slot j <;> simp

/-- `readSlots j n` gives the values of slots `j .. j+n-1`, where all of them are written. -/
theorem State.readSlots_ok (s : State) (f : Nat → Raw) (j n : Nat) (h : ∀ k, j ≤ k → k < j + n → s.slot k = some (f k)) :
    s.readSlots j n = .ok ((List.range n).map fun k => f (j + k)) := by
  induction n generalizing j with
  | zero => simp [State.readSlots]
  | succ n ih =>
    have hj := (s.readSlot_ok j _).2 (h j (by omega) (by omega))
    have ht := ih (j + 1) fun k h1 h2 => h k (by omega) (by omega)
    simp only [State.readSlots, hj, ht, List.range_succ_eq_map, List.map_cons, List.map_map]
    simp [Function.comp_def, Nat.add_assoc, Nat.add_comm 1]

/-- What `readSlots` reads has the length it was asked for. -/
theorem State.readSlots_length {s : State} {j n : Nat} {vs : List Raw} (h : s.readSlots j n = .ok vs) : vs.length = n := by
  induction n generalizing j vs with
  | zero => simp [State.readSlots] at h; simp [← h]
  | succ n ih =>
    simp only [State.readSlots] at h
    split at h
    · cases h
    · split at h
      · cases h
      · rename_i ht
        cases h
        simp [ih ht]

/-- `storeLow` changes at most the value buffer. -/
theorem State.storeLow_eq (p : Params) (i b : Byte) (s : State) :
    s.storeLow p i b =
      { s with values := if i.toNat < p.MAX_VALUES then s.values.set i.toNat (some (lowGroup b)) else s.values } := by
  unfold State.storeLow State.writeSlot
  split <;> rfl

/-- Where `storeHigh` succeeds it changes at most the value buffer. -/
theorem State.storeHigh_ok {p : Params} {i b : Byte} {s t : State} (h : s.storeHigh p i b = .ok t) :
    (i.toNat < p.MAX_VALUES ∧ ∃ v, s.slot i.toNat = some v ∧ t = s.writeSlot i.toNat (orHighGroup v b)) ∨
    (p.MAX_VALUES ≤ i.toNat ∧ t = s) := by
  unfold State.storeHigh at h
  split at h
  · rename_i hi
    split at h
    · cases h
    · rename_i v hv
      cases h
      exact .inl ⟨hi, v, (s.readSlot_ok _ _).1 hv, rfl⟩
  · rename_i hi
    cases h
    exact .inr ⟨Nat.le_of_not_lt hi, rfl⟩

/-- A marker byte clears the packet registers and the phase, and records at most the abort. -/
theorem abandonFrame_eq (p : Params) (b : Byte) (s : State) :
    abandonFrame p b s =
      { s with
        phase := .idle, kind := none, startIndex := none, count := none,
        values := List.replicate p.MAX_VALUES none,
        trace := s.trace ++ if s.phase = .idle then [] else [.condition (.frameAborted s.phase b)] } := by
  unfold abandonFrame
  split <;> simp [State.clearPacket, State.raise, State.record]

end Sys2Proof.Machine
end

