-- ==== Sys2Proof/Laws/Router.lean ====
section
/-!
SUPPORT. What a router access does, said once: a write adds one event, a read adds one or two and may use up one answer.
-/

namespace Sys2Proof.Machine

open Sys2Proof.Config

/-- An event a router access may make: a capability call or a condition. -/
def Event.isRouterEvent : Event → Bool
  | .call _ => true
  | .condition _ => true
  | .packetReady _ => false
  | .tx _ => false

/-- A write adds one event, the same in every state, and changes nothing else. -/
theorem routerWrite_spec (p : Params) (k : Nat) (v : Raw) :
    ∃ e : Event, e.isRouterEvent = true ∧ ∀ s : State, routerWrite p k v s = { s with trace := s.trace ++ [e] } := by
  unfold routerWrite
  cases resolve p k <;> exact ⟨_, rfl, fun _ => rfl⟩

/-- An answered call adds at most the failure to the observation. -/
theorem answered_spec {α : Type} (k : Nat) (conv : α → Raw) (a : Reply α) (s : State) :
    ∃ es : List Event, (answered k conv a s).2 = { s with trace := s.trace ++ es } ∧
      ∀ e ∈ es, e.isRouterEvent = true := by
  cases a with
  | ok x => exact ⟨[], by simp [answered], by simp⟩
  | fail => exact ⟨[.condition (.peripheralFailure k)], rfl, by simp [Event.isRouterEvent]⟩

/-- A read changes the environment and the observation, and nothing else. -/
theorem routerRead_spec (p : Params) (k : Nat) (s : State) :
    ∃ (env : Environment) (es : List Event), (routerRead p k s).2 = { s with env := env, trace := s.trace ++ es } ∧
      ∀ e ∈ es, e.isRouterEvent = true := by
  have viaCall : ∀ {α : Type} (conv : α → Raw) (a : Reply α) (c : CapCall) (env : Environment),
      ∃ (env' : Environment) (es : List Event),
        (answered k conv a (s.readCall c env)).2 = { s with env := env', trace := s.trace ++ es } ∧
          ∀ e ∈ es, e.isRouterEvent = true := by
    intro α conv a c env
    obtain ⟨es, hes, hall⟩ := answered_spec k conv a (s.readCall c env)
    refine ⟨env, .call c :: es, ?_, ?_⟩
    · rw [hes]
      apply State.ext_fields <;> simp
    · intro e he
      rcases List.mem_cons.1 he with rfl | he
      · rfl
      · exact hall e he
  have noCall : ∀ c : Condition, ∃ (env : Environment) (es : List Event),
      (s.raise c) = { s with env := env, trace := s.trace ++ es } ∧ ∀ e ∈ es, e.isRouterEvent = true :=
    fun c => ⟨s.env, [.condition c], rfl, by simp [Event.isRouterEvent]⟩
  unfold routerRead
  cases resolve p k with
  | servo ch => exact viaCall _ _ _ _
  | digitalOutput ch => exact viaCall _ _ _ _
  | digitalIO ch => exact viaCall _ _ _ _
  | touch ch => exact viaCall _ _ _ _
  | current => exact viaCall _ _ _ _
  | voltage => exact viaCall _ _ _ _
  | rgb ch => exact noCall _
  | unmapped => exact noCall _

end Sys2Proof.Machine
end

