-- ==== Sys2Proof/Laws/Dispatcher.lean ====
section
/-!
SUPPORT. What the loops of the dispatcher and the dispatch of a packet do, said once.
-/

namespace Sys2Proof.Machine

open Sys2Proof.Config

/-- The writes of a SET add router events to the observation and change nothing else. -/
theorem writeAll_spec (p : Params) (k : Nat) (vs : List Raw) (s : State) :
    ∃ es : List Event, writeAll p k vs s = { s with trace := s.trace ++ es } ∧
      ∀ e ∈ es, e.isRouterEvent = true := by
  induction vs generalizing k s with
  | nil => exact ⟨[], by simp [writeAll], by simp⟩
  | cons v vs ih =>
    obtain ⟨e, he, hw⟩ := routerWrite_spec p k v
    obtain ⟨es, hes, hall⟩ := ih (k + 1) (routerWrite p k v s)
    refine ⟨e :: es, ?_, ?_⟩
    · rw [writeAll, hes, hw]
      simp
    · intro x hx
      rcases List.mem_cons.1 hx with rfl | hx
      · exact he
      · exact hall x hx

/-- The reads of a GET answer one value per index, and change the environment and the observation only. -/
theorem readAll_spec (p : Params) (k n : Nat) (s : State) :
    (readAll p k n s).1.length = n ∧
    ∃ (env : Environment) (es : List Event), (readAll p k n s).2 = { s with env := env, trace := s.trace ++ es } ∧
      ∀ e ∈ es, e.isRouterEvent = true := by
  induction n generalizing k s with
  | zero => exact ⟨by simp [readAll], s.env, [], by simp [readAll], by simp⟩
  | succ n ih =>
    obtain ⟨env1, es1, h1, hall1⟩ := routerRead_spec p k s
    obtain ⟨hlen, env2, es2, h2, hall2⟩ := ih (k + 1) (routerRead p k s).2
    refine ⟨by simp [readAll, hlen], env2, es1 ++ es2, ?_, ?_⟩
    · rw [readAll]
      simp only [h2]
      simp [h1]
    · intro e he
      rcases List.mem_append.1 he with he | he
      · exact hall1 e he
      · exact hall2 e he

/-- The dispatch of a packet, in its three cases: dropped, SET, GET. -/
theorem dispatch_cases (p : Params) (pkt : Packet) (s : State) :
    (¬ validCount p pkt.count ∧
      dispatch p pkt s = s.raise (.malformedPacket pkt.kind pkt.startIndex pkt.count)) ∨
    (validCount p pkt.count ∧ pkt.kind = .set ∧ ∃ es : List Event,
      dispatch p pkt s = { s with trace := s.trace ++ es } ∧ ∀ e ∈ es, e.isRouterEvent = true) ∨
    (validCount p pkt.count ∧ pkt.kind = .get ∧
      ∃ (env : Environment) (es : List Event) (resp : List Raw), resp.length = pkt.count.toNat ∧
        dispatch p pkt s =
          { s with
            env := env
            output := s.output ++ respFrame p pkt.startIndex pkt.count resp
            trace := s.trace ++ es ++ (respFrame p pkt.startIndex pkt.count resp).map Event.tx } ∧
        ∀ e ∈ es, e.isRouterEvent = true) := by
  by_cases hc : validCount p pkt.count
  · rcases hk : pkt.kind with _ | _
    · obtain ⟨es, h, hall⟩ := writeAll_spec p pkt.startIndex.toNat pkt.vals s
      exact .inr (.inl ⟨hc, rfl, es, by rw [dispatch, if_pos hc, hk]; exact h, hall⟩)
    · obtain ⟨hlen, env, es, h, hall⟩ := readAll_spec p pkt.startIndex.toNat pkt.count.toNat s
      refine .inr (.inr ⟨hc, rfl, env, es, _, hlen, ?_, hall⟩)
      rw [dispatch, if_pos hc, hk]
      simp only [dispatchGet, State.txAll_eq, h]
  · exact .inl ⟨hc, by rw [dispatch, if_neg hc]⟩

/-- Whatever is dispatched, the input is left alone and the packet registers and the phase are as they were. -/
theorem dispatch_frame (p : Params) (pkt : Packet) (s : State) :
    (dispatch p pkt s).input = s.input ∧ (dispatch p pkt s).phase = s.phase ∧ (dispatch p pkt s).kind = s.kind ∧
    (dispatch p pkt s).startIndex = s.startIndex ∧ (dispatch p pkt s).count = s.count ∧
    (dispatch p pkt s).values = s.values := by
  rcases dispatch_cases p pkt s with ⟨_, h⟩ | ⟨_, _, es, h, _⟩ | ⟨_, _, env, es, resp, _, h, _⟩ <;> simp [h]

end Sys2Proof.Machine
end

