-- ==== Sys2Proof/Laws/Operands.lean ====
section
/-!
SUPPORT. What the operand forms give, as numbers and on the byte of a data byte, at the widths of spec/00_scope.md R8.
-/

namespace Sys2Proof

open Sys2Proof.Config

/-- The low byte of an encoded value, as a number. -/
theorem encodeValue_fst_toNat (v : Nat) : (encodeValue v).1.toNat = v % 128 := by
  have h : v &&& payloadMask = v % 128 := Nat.and_two_pow_sub_one_eq_mod v 7
  simp only [encodeValue, BitVec.toNat_ofNat]
  omega

/-- The high byte of an encoded value, as a number. -/
theorem encodeValue_snd_toNat (v : Nat) : (encodeValue v).2.toNat = v / 128 % 128 := by
  have h : (v >>> PAYLOAD_BITS) &&& payloadMask = (v >>> PAYLOAD_BITS) % 128 := Nat.and_two_pow_sub_one_eq_mod _ 7
  have h2 : v >>> PAYLOAD_BITS = v / 128 := Nat.shiftRight_eq_div_pow v 7
  simp only [encodeValue, BitVec.toNat_ofNat]
  omega

end Sys2Proof

namespace Sys2Proof.Machine

open Sys2Proof.Config

/-- The low group of a byte, as a number. -/
theorem lowGroup_toNat (b : Byte) : (lowGroup b).toNat = b.toNat % 128 := by
  have h : b.toNat &&& 127 = b.toNat % 128 := Nat.and_two_pow_sub_one_eq_mod _ 7
  simp only [lowGroup, BitVec.toNat_setWidth, BitVec.toNat_and]
  simp
  omega

/-- The index field of a data byte is its payload. -/
@[simp] theorem fieldIndex_data (d : Group) : fieldIndex (d.setWidth 8) = d.setWidth INDEX_BITS := by
  simp [fieldIndex]

/-- The count field of a data byte is its payload. -/
@[simp] theorem fieldCount_data (d : Group) : fieldCount (d.setWidth 8) = d.setWidth COUNT_BITS := by
  simp [fieldCount]

/-- The low group of a data byte is its payload. -/
@[simp] theorem lowGroup_data (d : Group) : lowGroup (d.setWidth 8) = d.setWidth VALUE_BITS := by
  apply BitVec.eq_of_toNat_eq
  have : d.toNat < 128 := d.isLt
  simp [lowGroup_toNat]
  omega

/-- The high group of a data byte is its payload, seven bits up. -/
@[simp] theorem orHighGroup_data (v : Raw) (d : Group) :
    orHighGroup v (d.setWidth 8) = v ||| (d.setWidth VALUE_BITS <<< PAYLOAD_BITS) := by
  have h := lowGroup_data d
  unfold lowGroup at h
  rw [orHighGroup, h]

end Sys2Proof.Machine
end

