-- ==== Sys2Proof/Laws/Parser.lean ====
section
/-!
SUPPORT. What the parser does with a data byte, said once: either the frame goes on, or a packet is complete.
-/

namespace Sys2Proof.Machine

open Sys2Proof.Config

/-- Where `storeHigh` succeeds, handing over a packet afterwards is handing it over before: the buffer is cleared. -/
theorem State.packetReady_storeHigh {p : Params} {i b : Byte} {s t : State} (h : s.storeHigh p i b = .ok t) (pkt : Packet) :
    t.packetReady p pkt = s.packetReady p pkt := by
  rcases State.storeHigh_ok h with ⟨_, v, _, rfl⟩ | ⟨_, rfl⟩ <;> rfl

/-- A completed packet at the count byte has no values. -/
theorem completeAtCount_ok {p : Params} {k : Kind} {b : Byte} {s t : State} {r : Option Packet}
    (h : completeAtCount p k b s = .ok (t, r)) :
    ∃ start, s.startIndex = some start ∧
      r = some { kind := k, startIndex := start, count := fieldCount b, vals := [] } ∧
      t = s.packetReady p { kind := k, startIndex := start, count := fieldCount b, vals := [] } := by
  unfold completeAtCount State.readStartIndex at h
  cases hs : s.startIndex with
  | none => simp [hs] at h
  | some start =>
    simp only [hs, complete] at h
    cases h
    exact ⟨start, rfl, rfl, rfl⟩

/-- A packet completed at its last value byte has the first `min(count, MAX_VALUES)` slots. -/
theorem completeValues_ok {p : Params} {c : Count} {s t : State} {r : Option Packet}
    (h : completeValues p c s = .ok (t, r)) :
    ∃ start vals, s.startIndex = some start ∧ vals.length = min c.toNat p.MAX_VALUES ∧
      r = some { kind := .set, startIndex := start, count := c, vals := vals } ∧
      t = s.packetReady p { kind := .set, startIndex := start, count := c, vals := vals } := by
  unfold completeValues State.readStartIndex at h
  cases hs : s.startIndex with
  | none => simp [hs] at h
  | some start =>
    simp only [hs] at h
    split at h
    · cases h
    · rename_i vals hv
      cases h
      exact ⟨start, vals, rfl, State.readSlots_length hv, rfl, rfl⟩

/-- A data byte in one of two cases. The frame goes on: only the phase, the packet registers and the observation may change,
the observation by at most the stray byte. Or a packet is complete: it is the packet registers' content, its values are none or
the first `min(count, MAX_VALUES)`, and the state is `s` with the packet handed over. -/
theorem parseData_cases {p : Params} {b : Byte} {s t : State} {r : Option Packet} (h : parseData p b s = .ok (t, r)) :
    (r = none ∧ t.output = s.output ∧ t.env = s.env ∧ t.input = s.input ∧
      (t.trace = s.trace ∨ t.trace = s.trace ++ [.condition (.strayData b)])) ∨
    (∃ pkt : Packet, r = some pkt ∧ t = s.packetReady p pkt ∧ s.startIndex = some pkt.startIndex ∧
      ((s.phase = .awaitCount ∧ s.kind = some pkt.kind ∧ pkt.count = fieldCount b ∧ pkt.vals = [] ∧
          (pkt.kind = .set → b = 0)) ∨
        (pkt.kind = .set ∧ s.count = some pkt.count ∧ pkt.vals.length = min pkt.count.toNat p.MAX_VALUES ∧
          ∃ i, s.phase = .awaitValueHigh i))) := by
  unfold parseData at h
  cases hph : s.phase with
  | idle =>
    simp only [hph, strayData] at h
    cases h
    exact .inl ⟨rfl, rfl, rfl, rfl, .inr rfl⟩
  | awaitStartIndex =>
    simp only [hph, storeStartIndex] at h
    cases h
    exact .inl ⟨rfl, rfl, rfl, rfl, .inl rfl⟩
  | awaitCount =>
    simp only [hph, parseCount, State.readKind] at h
    cases hk : s.kind with
    | none => simp [hk] at h
    | some k =>
      simp only [hk] at h
      cases k with
      | get =>
        obtain ⟨start, hs, rfl, rfl⟩ := completeAtCount_ok h
        exact .inr ⟨_, rfl, rfl, hs, .inl ⟨rfl, rfl, rfl, rfl, by simp⟩⟩
      | set =>
        simp only at h
        split at h
        · rename_i hb
          obtain ⟨start, hs, rfl, rfl⟩ := completeAtCount_ok h
          exact .inr ⟨_, rfl, rfl, hs, .inl ⟨rfl, rfl, rfl, rfl, fun _ => hb⟩⟩
        · simp only [beginValues] at h
          cases h
          exact .inl ⟨rfl, rfl, rfl, rfl, .inl rfl⟩
  | awaitValueLow i =>
    simp only [hph, parseValueLow, State.storeLow_eq] at h
    cases h
    exact .inl ⟨rfl, rfl, rfl, rfl, .inl rfl⟩
  | awaitValueHigh i =>
    simp only [hph, parseValueHigh, State.readCount] at h
    cases hst : s.storeHigh p i b with
    | error f => simp [hst] at h
    | ok s1 =>
      have hs1 : s1.startIndex = s.startIndex ∧ s1.count = s.count ∧ s1.output = s.output ∧ s1.env = s.env ∧
          s1.input = s.input ∧ s1.trace = s.trace := by
        rcases State.storeHigh_ok hst with ⟨_, v, _, rfl⟩ | ⟨_, rfl⟩ <;> simp
      obtain ⟨h1, h2, h3, h4, h5, h6⟩ := hs1
      simp only [hst, h2] at h
      cases hc : s.count with
      | none => simp [hc] at h
      | some c =>
        simp only [hc] at h
        split at h
        · obtain ⟨start, vals, hs, hlen, rfl, rfl⟩ := completeValues_ok h
          exact .inr ⟨_, rfl, State.packetReady_storeHigh hst _, h1 ▸ hs, .inr ⟨rfl, rfl, hlen, i, rfl⟩⟩
        · simp only [nextPair] at h
          cases h
          exact .inl ⟨rfl, h3, h4, h5, .inl h6⟩

end Sys2Proof.Machine
end

