-- ==== Sys2Proof/Laws/PerInstr.lean ====
section
/-!
SUPPORT. Laws of the instructions as syntax, one lemma per constructor.
-/

namespace Sys2Proof.Laws.MarkerBit

/-- R55, R70: bit 7 of an instruction's byte is clear exactly for a data byte. -/
def Statement (i : Instr) : Prop :=
  wellFormed i = true → ((encodeByteWith Machine.params i).msb = false ↔ ∃ d, i = .data d)

theorem set : Statement .set := by
  intro _
  have h : (encodeByteWith Machine.params .set).msb = true := by decide
  simp [h]

theorem get : Statement .get := by
  intro _
  have h : (encodeByteWith Machine.params .get).msb = true := by decide
  simp [h]

theorem invalidMarker (b : Byte) : Statement (.invalidMarker b) := by
  intro h
  simp only [wellFormed, wellFormedWith, Bool.and_eq_true] at h
  simp [encodeByteWith, h.1.1]

theorem data (d : Group) : Statement (.data d) := by
  intro _
  simp [encodeByteWith, BitVec.msb_setWidth]

end Sys2Proof.Laws.MarkerBit
end

