-- ==== Sys2Proof/Laws/Run.lean ====
section
/-!
SUPPORT. Runs of several steps: they compose, and they are the host's runs.
-/

namespace Sys2Proof.Machine

/-- One step and then the others. -/
theorem runSteps_succ {s t : State} (n : Nat) (h : step s = .next t) : runSteps (n + 1) s = runSteps n t := by
  simp only [runSteps, h]

/-- A run of `m + n` steps is a run of `n` from where `m` steps lead. -/
theorem runSteps_add {m : Nat} {s t : State} (n : Nat) (h : runSteps m s = .next t) :
    runSteps (m + n) s = runSteps n t := by
  induction m generalizing s with
  | zero =>
    simp only [runSteps, Host.Outcome.next.injEq] at h
    rw [h, Nat.zero_add]
  | succ m ih =>
    simp only [runSteps] at h
    split at h
    · rename_i u hu
      rw [Nat.succ_add, runSteps_succ _ hu]
      exact ih h
    · cases h
    · cases h

/-- `runSteps` is the host's run of this machine. -/
theorem runSteps_eq_core_run (n : Nat) (s : State) : runSteps n s = Host.Core.run Sys2Proof.core n s := by
  induction n generalizing s with
  | zero => rfl
  | succ n ih =>
    cases h : step s with
    | next t =>
      have hc : Sys2Proof.core.step s = .next t := h
      simp only [runSteps, h, Host.Core.run, hc, ih]
      rfl
    | fault r =>
      have hc : Sys2Proof.core.step s = .fault r := h
      simp only [runSteps, h, Host.Core.run, hc]
      rfl
    | refused r =>
      have hc : Sys2Proof.core.step s = .refused r := h
      simp only [runSteps, h, Host.Core.run, hc]
      rfl

end Sys2Proof.Machine
end

