-- ==== Sys2Proof/Tests/Slice0.lean ====
section
/-!
SUPPORT. Small tests whose expected results come from spec/95_test_vectors.md and the examples of the rules, the smoke test of
well-formedness, and for every obligation with hypotheses a concrete state and operands that meet them together.
-/

namespace Sys2Proof.Tests

open Sys2Proof.Config Sys2Proof.Machine

/-- A parser in phase `ph` of a frame of kind `k`, with the given fields and the first slots holding `vals`. -/
def stateAt (ph : Phase) (k : Option Kind) (start : Option Index) (count : Option Count) (vals : List Raw) : State :=
  { State.reset with
    phase := ph, kind := k, startIndex := start, count := count,
    values := vals.map some ++ List.replicate (params.MAX_VALUES - vals.length) none }

/-- The state after an outcome, if there is one. -/
def after : Host.Outcome State Fault Refusal → Option State
  | .next s => some s
  | .fault _ => none
  | .refused _ => none

/-! ### Well-formedness: a term that each check refuses (R70, R78) -/

theorem test_wellFormed_refuses_dataByte : wellFormed (.invalidMarker 0x7F) = false := by decide
theorem test_wellFormed_refuses_setMarker : wellFormed (.invalidMarker 0xD3) = false := by decide
theorem test_wellFormed_refuses_getMarker : wellFormed (.invalidMarker 0xC7) = false := by decide
theorem test_wellFormed_accepts : wellFormed (.invalidMarker 0x81) = true ∧ wellFormed (.data 0x7F) = true := by decide

/-! ### Decoding, words written out from R70's classes -/

theorem test_decode_set : decodeTableWord 8 0b11010011 = some .set := by decide
theorem test_decode_get : decodeTableWord 8 0b11000111 = some .get := by decide
theorem test_decode_invalidMarker : decodeTableWord 8 0b10000001 = some (.invalidMarker 0x81) := by decide
theorem test_decode_data : decodeTableWord 8 0b01011100 = some (.data 0x5C) := by decide
/-- R71: 0xD3 and 0xC7 differ in bits 4 and 2 only; the bytes with one of the two flipped are not recognised. -/
theorem test_decode_markers_compare_all_bits :
    decodeByte 0xC3 = .invalidMarker 0xC3 ∧ decodeByte 0xD7 = .invalidMarker 0xD7 := by decide
/-- X7: `SET 32, [0x0F0]` = `D3 20 01 70 01`; X4: `GET 19, 1` = `C7 13 01` and its response. -/
theorem test_frames : setFrame params 32 [0x0F0] = [0xD3, 0x20, 0x01, 0x70, 0x01] ∧
    getFrame params 19 1 = [0xC7, 0x13, 0x01] ∧ respFrame params 19 1 [1] = [0xC7, 0x13, 0x01, 0x01, 0x00] := by decide

/-! ### One step, one table row -/

/-- R122's example: from reset, 0xD3. -/
theorem test_set_starts_frame :
    (after (step (State.reset.withFetchWord 8 0xD3))).map (fun s => (s.phase, s.kind, s.input, s.trace)) =
      some (.awaitStartIndex, some .set, [], []) := by decide
/-- P-V3: a second SET marker aborts the first frame and starts anew. -/
theorem test_set_aborts_frame :
    (after (exec .set (stateAt .awaitStartIndex (some .set) none none []))).map (fun s => (s.phase, s.kind, s.trace)) =
      some (.awaitStartIndex, some .set, [.condition (.frameAborted .awaitStartIndex 0xD3)]) := by decide
/-- P-V5: 0xC7 at a value's high byte. -/
theorem test_get_aborts_value :
    (after (exec .get (stateAt (.awaitValueHigh 0) (some .set) (some 0) (some 1) [5]))).map
      (fun s => (s.phase, s.kind, s.values, s.trace)) =
      some (.awaitStartIndex, some .get, List.replicate 32 none,
        [.condition (.frameAborted (.awaitValueHigh 0) 0xC7)]) := by decide
/-- X6: 0x81 in `AwaitValueLow(1)`: the abort, then the framing error. -/
theorem test_invalidMarker_mid_frame :
    (after (exec (.invalidMarker 0x81) (stateAt (.awaitValueLow 1) (some .set) (some 1) (some 3) [5]))).map
      (fun s => (s.phase, s.kind, s.values, s.trace)) =
      some (.idle, none, List.replicate 32 none,
        [.condition (.frameAborted (.awaitValueLow 1) 0x81), .condition (.framingError 0x81)]) := by decide
/-- P-V6: 0x81 in `Idle` records no abort. -/
theorem test_invalidMarker_idle :
    (after (exec (.invalidMarker 0x81) State.reset)).map (fun s => (s.phase, s.trace)) =
      some (.idle, [.condition (.framingError 0x81)]) := by decide
/-- D-V5: the last byte of `SET 17, [3000, 0, 1, 0]` spans a servo, the reserved index, the relay and a digital I/O. -/
theorem test_data_completes_set :
    (after (exec (.data 0) (stateAt (.awaitValueHigh 3) (some .set) (some 17) (some 4) [3000, 0, 1, 0]))).map
      (fun s => (s.phase, s.output, s.trace)) =
      some (.idle, [],
        [.packetReady { kind := .set, startIndex := 17, count := 4, vals := [3000, 0, 1, 0] },
         .call (.setPulseWidthMicroseconds 17 2500), .condition (.addressMiss 18 .write),
         .call (.setLevel 0 true), .call (.setLevel 1 false)]) := by decide
/-- Step 3 of P3: `GET 19, 3` with answers high, low, `Fail`. -/
theorem test_data_completes_get :
    (after (exec (.data 3)
      { stateAt .awaitCount (some .get) (some 19) none [] with
        env := { State.reset.env with digital := [.ok true, .ok false, .fail] } })).map
      (fun s => (s.phase, s.output, s.trace.take 5)) =
      some (.idle, [0xC7, 0x13, 0x03, 0x01, 0x00, 0x00, 0x00, 0x00, 0x00],
        [.packetReady { kind := .get, startIndex := 19, count := 3, vals := [] },
         .call (.getLevel 0 (.ok true)), .call (.getLevel 1 (.ok false)), .call (.getLevel 2 .fail),
         .condition (.peripheralFailure 21)]) := by decide

/-! ### Shared operations -/

/-- K4, K13, K23, K24, K29 of section 2. -/
theorem test_codec :
    encodeValue 128 = (0, 1) ∧ encodeValue 1500 = (0x5C, 0x0B) ∧ encodeValue 16383 = (0x7F, 0x7F) ∧
    encodeValue 16384 = (0, 0) ∧ decodeValue 0xFF 0x01 = 255 := by decide
/-- A4, A6, A10, A11, A12, A13 of section 4. -/
theorem test_conversions :
    params.convTouch (Rat.mk' 33 10) = 1024 ∧ params.convTouch (Rat.mk' (-1) 1) = 16074 ∧
    params.convCurrent (Rat.mk' 407 10000) = 513 ∧ params.convCurrent (Rat.mk' (-407) 10000) = 511 ∧
    params.convCurrent (Rat.mk' (-50) 1) = 16282 ∧ params.convVolt (Rat.mk' 60 1) = 2234 := by decide
/-- Step 2 of P3 and vector R4: RGB nibbles, bits 13..12 ignored. -/
theorem test_rgb :
    (routerWrite params 35 0x123 State.reset).trace = [.call (.setColor 3 16 32 48)] ∧
    (routerWrite params 32 0x3FFF State.reset).trace = [.call (.setColor 0 240 240 240)] := by decide
/-- R52's rows at their first and last index. -/
theorem test_address_map :
    ([0, 17, 18, 19, 20, 21, 22, 27, 28, 29, 30, 31, 32, 37, 38, 255].map (resolve params)) =
      [.servo 0, .servo 17, .unmapped, .digitalOutput 0, .digitalIO 1, .digitalIO 2, .touch 0, .touch 5, .current, .voltage,
       .unmapped, .unmapped, .rgb 0, .rgb 5, .unmapped, .unmapped] := by decide
/-- R220's codes, in the order of its table. -/
theorem test_condition_codes :
    [Condition.framingError 0, .malformedPacket .set 0 0, .addressMiss 0 .read, .peripheralFailure 0, .frameAborted .idle 0,
     .strayData 0, .readOnlyWrite 0, .writeOnlyRead 0].map Condition.code = [1, 2, 3, 4, 5, 6, 7, 8] := by decide
/-- Z1: reset in mid-frame. -/
theorem test_reset_mid_frame :
    (after (step { stateAt (.awaitValueHigh 0) (some .set) (some 0) (some 2) [0x5C] with
      input := [.reset, .byte 0x0B] })).map (fun s => (s.phase, s.kind, s.values, s.trace)) =
      some (.idle, none, List.replicate 32 none, []) := by decide

/-! ### Witnesses: the hypotheses of each obligation are met together -/

theorem params_valid : params.Valid := by decide

theorem witness_DecodeEncodeRoundTrip : params.Valid ∧ wellFormedWith params .set = true ∧ wellFormedWith params .get = true ∧
    wellFormedWith params (.invalidMarker 0x80) = true ∧ wellFormedWith params (.invalidMarker 0xFF) = true ∧
    wellFormedWith params (.data 0x7F) = true := ⟨params_valid, by decide⟩
theorem witness_EveryByteHasOneClass : params.Valid ∧
    decodeByteWith params 0xD3 = .set ∧ decodeByteWith params 0xC7 = .get ∧
    decodeByteWith params 0x80 = .invalidMarker 0x80 ∧ decodeByteWith params 0x7F = .data 0x7F := ⟨params_valid, by decide⟩
theorem witness_CodecIsInverse : BitVec.msb (0x7F : Byte) = false ∧ BitVec.msb (0 : Byte) = false ∧
    encodeValue (decodeValue 0x7F 0x7F).toNat = (0x7F, 0x7F) := by decide
theorem witness_EncodedBytesAreData : params.Valid ∧ (encodeValue 16383).1.msb = false := ⟨params_valid, by decide⟩
theorem witness_IncrementalAssemblyIsDecode :
    BitVec.toNat (31 : Byte) < params.MAX_VALUES ∧ BitVec.toNat (31 : Byte) < State.reset.values.length := by decide
theorem witness_StepRunsDecodedByte :
    (State.reset.withFetchWord 8 0xD3).input = .byte 0xD3 :: [] ∧ decode [0xD3] = .ok (.set, []) := ⟨by decide, rfl⟩
theorem witness_ResetEventClearsPacket : ({ State.reset with input := [.reset, .byte 1] } : State).input = .reset :: [.byte 1] :=
  rfl
theorem witness_CoreWaitsForInput : State.reset.input = [] := rfl
theorem witness_MarkerHasNoOutwardEffect : BitVec.msb (0x80 : Byte) = true ∧ BitVec.msb (0xFF : Byte) = true ∧
    BitVec.msb params.SET_MARKER = true := by decide
theorem witness_StrayDataIsDiscarded : State.reset.phase = .idle := rfl
theorem witness_StartIndexIsStored : (stateAt .awaitStartIndex (some .get) none none []).phase = .awaitStartIndex := rfl
theorem witness_GetCompletesAtCount : (stateAt .awaitCount (some .get) (some 127) none []).phase = .awaitCount ∧
    (stateAt .awaitCount (some .get) (some 127) none []).kind = some .get ∧
    (stateAt .awaitCount (some .get) (some 127) none []).startIndex = some 127 := by decide
theorem witness_ZeroCountSetCompletesAndDrops : (stateAt .awaitCount (some .set) (some 0) none []).phase = .awaitCount ∧
    (stateAt .awaitCount (some .set) (some 0) none []).kind = some .set ∧
    (stateAt .awaitCount (some .set) (some 0) none []).startIndex = some 0 := by decide
theorem witness_SetCountBeginsValues : (127 : Group) ≠ 0 ∧ (1 : Group) ≠ 0 ∧
    (stateAt .awaitCount (some .set) (some 0) none []).phase = .awaitCount ∧
    (stateAt .awaitCount (some .set) (some 0) none []).kind = some .set := by decide
theorem witness_LowGroupIsStored : (stateAt (.awaitValueLow 31) (some .set) (some 0) (some 33) []).phase = .awaitValueLow 31 ∧
    BitVec.toNat (31 : Byte) < params.MAX_VALUES ∧
    (stateAt (.awaitValueLow 32) (some .set) (some 0) (some 33) []).phase = .awaitValueLow 32 ∧
    ¬ BitVec.toNat (32 : Byte) < params.MAX_VALUES := by decide
theorem witness_HighGroupContinuesFrame_stores :
    (stateAt (.awaitValueHigh 0) (some .set) (some 5) (some 2) [10]).phase = .awaitValueHigh 0 ∧
    (stateAt (.awaitValueHigh 0) (some .set) (some 5) (some 2) [10]).count = some 2 ∧
    BitVec.toNat (0 : Byte) + 1 < BitVec.toNat (2 : Byte) ∧ BitVec.toNat (0 : Byte) < params.MAX_VALUES ∧
    (stateAt (.awaitValueHigh 0) (some .set) (some 5) (some 2) [10]).slot (BitVec.toNat (0 : Byte)) = some 10 := by decide
theorem witness_HighGroupContinuesFrame_discards :
    (stateAt (.awaitValueHigh 32) (some .set) (some 5) (some 34) []).phase = .awaitValueHigh 32 ∧
    (stateAt (.awaitValueHigh 32) (some .set) (some 5) (some 34) []).count = some 34 ∧
    BitVec.toNat (32 : Byte) + 1 < BitVec.toNat (34 : Byte) ∧ params.MAX_VALUES ≤ BitVec.toNat (32 : Byte) := by decide
theorem witness_LastHighGroupCompletesSet :
    (stateAt (.awaitValueHigh 1) (some .set) (some 5) (some 2) [10, 20]).phase = .awaitValueHigh 1 ∧
    (stateAt (.awaitValueHigh 1) (some .set) (some 5) (some 2) [10, 20]).count = some 2 ∧
    (stateAt (.awaitValueHigh 1) (some .set) (some 5) (some 2) [10, 20]).startIndex = some 5 ∧
    BitVec.toNat (1 : Byte) + 1 = BitVec.toNat (2 : Byte) ∧
    ∀ j, j < min (BitVec.toNat (2 : Byte)) params.MAX_VALUES →
      (stateAt (.awaitValueHigh 1) (some .set) (some 5) (some 2) [10, 20]).slot j =
        some ((fun k => if k = 0 then 10 else 20 : Nat → Raw) j) := by decide
/-- Count 33, one above `MAX_VALUES`: the packet has the 32 slots there are. -/
theorem witness_LastHighGroupCompletesSet_overlong :
    (stateAt (.awaitValueHigh 32) (some .set) (some 5) (some 33) (List.replicate 32 7)).count = some 33 ∧
    BitVec.toNat (32 : Byte) + 1 = BitVec.toNat (33 : Count) ∧
    ∀ j, j < min (BitVec.toNat (33 : Count)) params.MAX_VALUES →
      (stateAt (.awaitValueHigh 32) (some .set) (some 5) (some 33) (List.replicate 32 7)).slot j =
        some ((fun _ => 7 : Nat → Raw) j) := by decide
theorem witness_UnwrittenFieldReadFaults :
    (stateAt .awaitCount none none none []).kind = none ∧
    (stateAt .awaitCount (some .get) none none []).startIndex = none ∧
    (stateAt .awaitCount (some .set) none none []).startIndex = none ∧
    (BitVec.toNat (31 : Byte) < params.MAX_VALUES ∧
      (stateAt (.awaitValueHigh 31) (some .set) none none []).slot (BitVec.toNat (31 : Byte)) = none) := by decide
/-- `count` unwritten, with the slot written (slot 0) and with no slot to write (32). -/
theorem witness_UnwrittenFieldReadFaults_count :
    ((stateAt (.awaitValueHigh 0) (some .set) none none [10]).slot 0 ≠ none ∧
      (stateAt (.awaitValueHigh 0) (some .set) none none [10]).count = none) ∧
    ¬ BitVec.toNat (32 : Byte) < params.MAX_VALUES ∧
      (stateAt (.awaitValueHigh 32) (some .set) none none []).count = none := by decide
/-- The last high group, its own slot written: `startIndex` unwritten. -/
theorem witness_UnwrittenFieldReadFaults_startIndex :
    (stateAt (.awaitValueHigh 0) (some .set) none (some 1) [10]).slot (BitVec.toNat (0 : Byte)) ≠ none ∧
    (stateAt (.awaitValueHigh 0) (some .set) none (some 1) [10]).count = some 1 ∧
    BitVec.toNat (0 : Byte) + 1 = BitVec.toNat (1 : Count) ∧
    (stateAt (.awaitValueHigh 0) (some .set) none (some 1) [10]).startIndex = none := by decide
/-- The last high group of 33 values, with slot 1 the first one unwritten. -/
theorem witness_UnwrittenFieldReadFaults_slot :
    ¬ BitVec.toNat (32 : Byte) < params.MAX_VALUES ∧
    (stateAt (.awaitValueHigh 32) (some .set) (some 5) (some 33) [10]).count = some 33 ∧
    BitVec.toNat (32 : Byte) + 1 = BitVec.toNat (33 : Count) ∧
    (stateAt (.awaitValueHigh 32) (some .set) (some 5) (some 33) [10]).startIndex ≠ none ∧
    1 < min (BitVec.toNat (33 : Count)) params.MAX_VALUES ∧
    (stateAt (.awaitValueHigh 32) (some .set) (some 5) (some 33) [10]).slot 1 = none ∧
    ∀ k, k < 1 → (stateAt (.awaitValueHigh 32) (some .set) (some 5) (some 33) [10]).slot k ≠ none := by decide
theorem witness_OnlyValidCountsAreDispatched :
    (BitVec.toNat (0 : Byte) = 0 ∧ params.MAX_VALUES < BitVec.toNat (33 : Byte)) ∧
    (1 ≤ BitVec.toNat (1 : Byte) ∧ BitVec.toNat (32 : Byte) ≤ params.MAX_VALUES) := by decide
theorem witness_SetWritesInIndexOrder :
    ∃ pkt : Packet, pkt.kind = .set ∧ 1 ≤ pkt.count.toNat ∧ pkt.count.toNat ≤ params.MAX_VALUES ∧
      pkt.vals.length = pkt.count.toNat :=
  ⟨{ kind := .set, startIndex := 5, count := 2, vals := [10, 20] }, by decide⟩
theorem witness_GetReadsThenResponds :
    ∃ pkt : Packet, pkt.kind = .get ∧ 1 ≤ pkt.count.toNat ∧ pkt.count.toNat ≤ params.MAX_VALUES :=
  ⟨{ kind := .get, startIndex := 30, count := 32, vals := [] }, by decide⟩
theorem witness_DispatchLeavesParser :
    ({ kind := .set, startIndex := 5, count := 1, vals := [10] } : Packet).kind = .set ∧
    ¬ validCount params (0 : Byte) ∧ ¬ validCount params (33 : Byte) := by decide
theorem witness_ResponseFrameShape : params.Valid ∧ BitVec.toNat (127 : Byte) ≤ 127 ∧ BitVec.toNat (1 : Byte) ≤ 127 ∧
    ([16383] : List Raw).length = BitVec.toNat (1 : Byte) := ⟨params_valid, by decide⟩
theorem witness_ValuePairsCarryValues : 1 < ([1500, 2500] : List Raw).length := by decide
theorem witness_ResolveIsTheRow : params.Valid ∧ resolve params 37 = .rgb 5 ∧ resolve params 18 = .unmapped :=
  ⟨params_valid, by decide⟩
theorem witness_BeyondMapIsUnmapped : params.ADDR_COUNT ≤ 38 := by decide

/-- The count byte of `GET 127, 1`; and the largest packet of D-V2 stays below 159. -/
theorem witness_PacketFieldsAndIndicesBounded :
    (∃ (d : Group) (s t : State) (es : List Event) (pkt : Packet), s.Inv params ∧ exec (.data d) s = .next t ∧
      t.trace = s.trace ++ es ∧ .packetReady pkt ∈ es ∧ validCount params pkt.count) ∧
    validCount params 32 ∧ BitVec.toNat (127 : Byte) + 31 = 158 := by
  refine ⟨⟨1, stateAt .awaitCount (some .get) (some 127) none [], _, _,
    { kind := .get, startIndex := 127, count := 1, vals := [] },
    ⟨by decide, rfl, ⟨127, rfl, by decide⟩, rfl, ?_⟩, rfl, (List.nil_append _).symm, by decide, by decide⟩, by decide⟩
  unfold writtenExactly
  decide

theorem witness_ServoWriteClamps : params.Valid ∧ 17 < params.SERVO_COUNT ∧
    BitVec.toNat (499 : Raw) < params.SERVO_MIN_US ∧
    (params.SERVO_MIN_US ≤ BitVec.toNat (500 : Raw) ∧ BitVec.toNat (2500 : Raw) ≤ params.SERVO_MAX_US) ∧
    params.SERVO_MAX_US < BitVec.toNat (2501 : Raw) := ⟨params_valid, by decide⟩
theorem witness_RelayWriteDrivesLevel : params.Valid := params_valid
theorem witness_DigitalIOWriteDrivesLevel : params.Valid := params_valid
theorem witness_RgbWriteSplitsNibbles : 0 < params.RGB_COUNT ∧ 5 < params.RGB_COUNT := by decide
theorem witness_SensorWriteIsIgnored : params.Valid ∧ (params.TOUCH_BASE ≤ 22 ∧ 27 < params.TOUCH_BASE + params.TOUCH_COUNT) ∧
    28 = params.CURRENT_INDEX ∧ 29 = params.VOLTAGE_INDEX := ⟨params_valid, by decide⟩
theorem witness_UnmappedIndexIsInert : params.Valid ∧ InRow params 18 .unmapped ∧ InRow params 38 .unmapped := by
  refine ⟨params_valid, ?_, ?_⟩ <;> (simp only [InRow]; decide)
theorem witness_RgbReadsZero : params.Valid ∧ 5 < params.RGB_COUNT := ⟨params_valid, by decide⟩
theorem witness_ServoReadReducesAnswer : params.Valid ∧ 17 < params.SERVO_COUNT ∧
    Reply.ok 20000 = ({ State.reset.env with servo := [.ok 20000] } : Environment).nextServo ∧
    Reply.fail = ({ State.reset.env with servo := [.fail] } : Environment).nextServo := ⟨params_valid, by decide, rfl, rfl⟩
theorem witness_DigitalReadGivesLevel : params.Valid ∧ (0 = 0 ∧ 19 = params.RELAY_INDEX) ∧
    (1 = 1 ∧ 20 = params.DIO_INDICES.1) ∧ (2 = 2 ∧ 21 = params.DIO_INDICES.2) ∧
    Reply.ok true = ({ State.reset.env with digital := [.ok true] } : Environment).nextDigital ∧
    Reply.ok false = ({ State.reset.env with digital := [.ok false] } : Environment).nextDigital ∧
    Reply.fail = ({ State.reset.env with digital := [.fail] } : Environment).nextDigital :=
  ⟨params_valid, by decide, by decide, by decide, rfl, rfl, rfl⟩
theorem witness_TouchReadConverts : params.Valid ∧ 5 < params.TOUCH_COUNT ∧
    Reply.ok 1 = ({ State.reset.env with touch := [.ok 1] } : Environment).nextTouch ∧
    Reply.fail = ({ State.reset.env with touch := [.fail] } : Environment).nextTouch := ⟨params_valid, by decide, rfl, rfl⟩
theorem witness_CurrentReadConverts : params.Valid ∧
    Reply.ok 1 = ({ State.reset.env with current := [.ok 1] } : Environment).nextCurrent ∧
    Reply.fail = ({ State.reset.env with current := [.fail] } : Environment).nextCurrent := ⟨params_valid, rfl, rfl⟩
theorem witness_VoltageReadConverts : params.Valid ∧
    Reply.ok 12 = ({ State.reset.env with voltage := [.ok 12] } : Environment).nextVoltage ∧
    Reply.fail = ({ State.reset.env with voltage := [.fail] } : Environment).nextVoltage := ⟨params_valid, rfl, rfl⟩
theorem witness_EnvironmentAnswersInOrder : State.reset.env.servo = [] ∧ State.reset.env.digital = [] ∧
    State.reset.env.touch = [] ∧ State.reset.env.current = [] ∧ State.reset.env.voltage = [] ∧
    ({ servo := [.ok 1], digital := [.fail], touch := [.fail], current := [.fail], voltage := [.fail], draws := 0 } :
      Environment).servo = .ok 1 :: [] := ⟨rfl, rfl, rfl, rfl, rfl, rfl⟩
theorem witness_ReadsAreNotCached : params.Valid ∧ 0 < params.SERVO_COUNT ∧
    ({ State.reset with env := { State.reset.env with servo := [.ok 1500, .ok 2500] } } : State).env.servo =
      .ok 1500 :: .ok 2500 :: [] := ⟨params_valid, by decide, rfl⟩
/-- A state of R34's shape in the middle of a frame: P-V9's end state. -/
theorem witness_StepKeepsReachableShape :
    (stateAt (.awaitValueHigh 0) (some .set) (some 2) (some 2) [0x10]).Inv params := by
  refine ⟨by decide, rfl, ⟨2, rfl, by decide⟩, ⟨2, rfl, by decide, by decide⟩, ?_⟩
  unfold writtenExactly
  decide
theorem witness_SetFrameRunsToDispatch : ([10, 20] : List Raw).length ≤ 127 ∧
    ({ State.reset with input := (setFrame params 5 [10, 20]).map Input.byte } : State).input =
      (setFrame params 5 [10, 20]).map Input.byte ++ [] := by decide
theorem witness_GetFrameRunsToDispatch :
    ({ State.reset with input := (getFrame params 19 1).map Input.byte } : State).input =
      (getFrame params 19 1).map Input.byte ++ [] := by decide
theorem witness_ResponseLoopsBackAsGet : State.reset.phase = .idle ∧
    ({ State.reset with input := (respFrame params 19 1 [1]).map Input.byte } : State).input =
      (respFrame params ((19 : Group).setWidth 8) ((1 : Group).setWidth 8) [1]).map Input.byte ++ [] := by decide
theorem witness_NoMarkerNoPacket : State.reset.phase = .idle ∧
    ({ State.reset with input := [.byte 0x10, .byte 0x20, .byte 0x7F] } : State).input =
      ([0x10, 0x20, 0x7F] : List Group).map (fun d => Input.byte (d.setWidth 8)) ++ [] := by decide
/-- A step that acts outside: the last byte of a valid SET makes a call. -/
theorem witness_OnlyValidPacketsActOutside :
    ∃ (i : Instr) (s t : State) (es : List Event), exec i s = .next t ∧ t.trace = s.trace ++ es ∧
      ∃ e ∈ es, e.isCall = true :=
  ⟨.data 0, stateAt (.awaitValueHigh 0) (some .set) (some 19) (some 1) [1], _, _, rfl, (List.nil_append _).symm,
    .call (.setLevel 0 true), by decide, rfl⟩
/-- A step that emits: the count byte of `GET 30, 2`. -/
theorem witness_OutputIsExactlyTheResponses :
    ∃ (i : Instr) (s t : State), exec i s = .next t ∧ t.output = [0xC7, 30, 2, 0, 0, 0, 0] :=
  ⟨.data 2, stateAt .awaitCount (some .get) (some 30) none [], _, rfl, by decide⟩
theorem witness_MarkerForgetsOldFrame : params.SET_MARKER = 0xD3 ∧ params.GET_MARKER = 0xC7 ∧
    (stateAt (.awaitValueHigh 0) (some .set) (some 5) (some 2) [10]).output = State.reset.output ∧
    (stateAt (.awaitValueHigh 0) (some .set) (some 5) (some 2) [10]).env = State.reset.env ∧
    (stateAt (.awaitValueHigh 0) (some .set) (some 5) (some 2) [10]).input = State.reset.input := by decide

end Sys2Proof.Tests
end

/-!
The packet parser (spec/41_packet_parser.md): the marker bytes that start a frame (R121 to R123, R135), and a data byte in
`Idle`, `AwaitStartIndex` and `AwaitCount` (R125 to R129).
-/

namespace Sys2Proof.Machine

open Sys2Proof.Config

/-! ### Reading the packet registers, and handing over a packet -/

theorem State.readKind_ok (s : State) (k : Kind) : s.readKind = .ok k ↔ s.kind = some k := by
  cases h : s.kind <;> simp [State.readKind, h]

theorem State.readStartIndex_ok (s : State) (x : Index) : s.readStartIndex = .ok x ↔ s.startIndex = some x := by
  cases h : s.startIndex <;> simp [State.readStartIndex, h]

/-- R28, R29: what the hand-over of a packet leaves of the parser. -/
theorem State.packetReady_eq (p : Params) (pkt : Packet) (s : State) :
    s.packetReady p pkt =
      { s with
        phase := .idle, kind := none, startIndex := none, count := none,
        values := List.replicate p.MAX_VALUES none,
        trace := s.trace ++ [.packetReady pkt] } :=
  rfl

/-- R191: a packet whose count is not valid is dropped. -/
theorem dispatch_of_not_validCount {p : Params} {pkt : Packet} (h : ¬ validCount p pkt.count) (s : State) :
    dispatch p pkt s = s.raise (.malformedPacket pkt.kind pkt.startIndex pkt.count) :=
  if_neg h

/-! ### Marker bytes -/

theorem exec_set (s : State) : exec .set s = .next (startFrame .set (abandonFrame params params.SET_MARKER s)) :=
  rfl

theorem exec_get (s : State) : exec .get s = .next (startFrame .get (abandonFrame params params.GET_MARKER s)) :=
  rfl

/-- R121 and then R122 or R123: what is left of the old frame is the record of its abort. -/
theorem startFrame_abandonFrame (p : Params) (k : Kind) (b : Byte) (s : State) :
    startFrame k (abandonFrame p b s) =
      { s with
        phase := .awaitStartIndex, kind := some k, startIndex := none, count := none,
        values := List.replicate p.MAX_VALUES none,
        trace := s.trace ++ abortEvents s.phase b } := by
  rw [abandonFrame_eq]
  rfl

/-! ### Data bytes, by the phase -/

/-- A data byte with payload zero is the zero byte, and no other is. -/
theorem dataByte_eq_zero_iff (d : Group) : d.setWidth 8 = (0 : Byte) ↔ d = 0 := by
  rw [← BitVec.toNat_inj, ← BitVec.toNat_inj, BitVec.toNat_setWidth_of_le (by decide)]
  rfl

theorem exec_data (d : Group) (s : State) :
    exec (.data d) s = drive params (parseData params (d.setWidth 8) s) :=
  rfl

theorem parseData_of_idle {s : State} (h : s.phase = .idle) (p : Params) (b : Byte) :
    parseData p b s = strayData b s := by
  simp only [parseData, h]

theorem parseData_of_awaitStartIndex {s : State} (h : s.phase = .awaitStartIndex) (p : Params) (b : Byte) :
    parseData p b s = storeStartIndex b s := by
  simp only [parseData, h]

theorem parseData_of_awaitCount {s : State} (h : s.phase = .awaitCount) (p : Params) (b : Byte) :
    parseData p b s = parseCount p b s := by
  simp only [parseData, h]

theorem parseCount_of_get {s : State} (h : s.kind = some .get) (p : Params) (b : Byte) :
    parseCount p b s = completeAtCount p .get b s := by
  simp only [parseCount, (s.readKind_ok .get).2 h]

theorem parseCount_of_set {s : State} (h : s.kind = some .set) (p : Params) (b : Byte) :
    parseCount p b s = if b = 0 then completeAtCount p .set b s else beginValues b s := by
  simp only [parseCount, (s.readKind_ok .set).2 h]

theorem completeAtCount_of_startIndex {s : State} {start : Index} (h : s.startIndex = some start) (p : Params) (k : Kind)
    (b : Byte) :
    completeAtCount p k b s =
      complete p { kind := k, startIndex := start, count := fieldCount b, vals := [] } s := by
  simp only [completeAtCount, (s.readStartIndex_ok start).2 h]

/-- R190: a packet the parser completes is dispatched in the same step. -/
theorem drive_complete (p : Params) (pkt : Packet) (s : State) :
    drive p (complete p pkt s) = .next (dispatch p pkt (s.packetReady p pkt)) :=
  rfl

/-! ### The statements -/

/-- Settles O13: the marker's step is R121 followed by the start of a SET frame. -/
theorem setMarkerStartsSetFrame : Obligations.SetMarkerStartsSetFrame := by
  intro s
  rw [exec_set, startFrame_abandonFrame]

/-- Settles O14: the marker's step is R121 followed by the start of a GET frame. -/
theorem getMarkerStartsGetFrame : Obligations.GetMarkerStartsGetFrame := by
  intro s
  rw [exec_get, startFrame_abandonFrame]

/-- Settles O17: in `Idle` the parser only records the stray byte. -/
theorem strayDataIsDiscarded : Obligations.StrayDataIsDiscarded := by
  intro d s hphase
  rw [exec_data, parseData_of_idle hphase]
  rfl

/-- Settles O18: the index field of a data byte is its payload. -/
theorem startIndexIsStored : Obligations.StartIndexIsStored := by
  intro d s hphase
  rw [exec_data, parseData_of_awaitStartIndex hphase, storeStartIndex, fieldIndex_data]
  rfl

/-- Settles O19: with kind Get the count byte completes the packet, and the driver dispatches it. -/
theorem getCompletesAtCount : Obligations.GetCompletesAtCount := by
  intro d s start hphase hkind hstart
  rw [exec_data, parseData_of_awaitCount hphase, parseCount_of_get hkind, completeAtCount_of_startIndex hstart,
    fieldCount_data, drive_complete, State.packetReady_eq]

/-- Settles O20: with kind Set a zero count byte completes the packet, and zero is no valid count. -/
theorem zeroCountSetCompletesAndDrops : Obligations.ZeroCountSetCompletesAndDrops := by
  intro s start hphase hkind hstart
  have hbyte : (0 : Group).setWidth 8 = (0 : Byte) := (dataByte_eq_zero_iff 0).2 rfl
  have hcount : ¬ validCount params (fieldCount 0) := by decide
  rw [exec_data, hbyte, parseData_of_awaitCount hphase, parseCount_of_set hkind, if_pos rfl,
    completeAtCount_of_startIndex hstart, drive_complete, dispatch_of_not_validCount hcount, State.packetReady_eq]
  simp [State.raise, State.record, fieldCount]

/-- Settles O21: with kind Set a nonzero count byte is stored and the values begin. -/
theorem setCountBeginsValues : Obligations.SetCountBeginsValues := by
  intro d s hd hphase hkind
  have hbyte : d.setWidth 8 ≠ (0 : Byte) := fun h => hd ((dataByte_eq_zero_iff d).1 h)
  rw [exec_data, parseData_of_awaitCount hphase, parseCount_of_set hkind, if_neg hbyte, beginValues, fieldCount_data]
  rfl

end Sys2Proof.Machine

/-!
The address router (spec/42_address_router.md): `resolve` tests the rows of R52 in the order of the ranges, and under R9 no
index lies in two of them; a write to a sensor (R155).
-/

namespace Sys2Proof.Machine

open Sys2Proof.Config

/-! ### The row of an index -/

/-- An index lies in a range given, as in `Numbers.ranges`, by its first index and the number of its indices. -/
abbrev Covers (r : Nat × Nat) (k : Nat) : Prop :=
  r.1 ≤ k ∧ k < r.1 + r.2

theorem covers_one_iff {i k : Nat} : Covers (i, 1) k ↔ k = i := by
  simp only [Covers]
  omega

theorem not_covers_of_disjoint {a b : Nat × Nat} {k : Nat} (hab : Config.Disjoint a b) (hb : Covers b k) : ¬ Covers a k := by
  simp only [Covers, Config.Disjoint] at *
  omega

/-- R9: the index of a row lies in no row listed before it. -/
theorem not_covers_of_earlier {p : Params} (hp : p.Valid) (before : List (Nat × Nat)) {after : List (Nat × Nat)}
    {r : Nat × Nat} {k : Nat} (hr : p.ranges = before ++ r :: after) (hk : Covers r k) :
    ∀ a ∈ before, ¬ Covers a k := by
  obtain ⟨-, -, -, -, -, -, hdisjoint, -⟩ := hp
  rw [hr, List.pairwise_append] at hdisjoint
  obtain ⟨-, -, hcross⟩ := hdisjoint
  exact fun a ha => not_covers_of_disjoint (hcross a ha r List.mem_cons_self) hk

/-- R53 for an index of the touch row. -/
theorem resolve_of_touch {p : Params} (hp : p.Valid) {k : Nat} (hk : Covers (p.TOUCH_BASE, p.TOUCH_COUNT) k) :
    resolve p k = .touch (k - p.TOUCH_BASE) := by
  have h := not_covers_of_earlier hp (p.ranges.take 4) rfl hk
  simp only [Numbers.ranges, List.take_succ_cons, List.take_zero, List.forall_mem_cons, covers_one_iff] at h
  obtain ⟨hservo, hrelay, hdio₁, hdio₂, -⟩ := h
  rw [resolve, if_neg hservo, if_neg hrelay, if_neg hdio₁, if_neg hdio₂, if_pos hk]

theorem resolve_currentIndex {p : Params} (hp : p.Valid) : resolve p p.CURRENT_INDEX = .current := by
  have h := not_covers_of_earlier hp (p.ranges.take 5) rfl (covers_one_iff.2 rfl)
  simp only [Numbers.ranges, List.take_succ_cons, List.take_zero, List.forall_mem_cons, covers_one_iff] at h
  obtain ⟨hservo, hrelay, hdio₁, hdio₂, htouch, -⟩ := h
  rw [resolve, if_neg hservo, if_neg hrelay, if_neg hdio₁, if_neg hdio₂, if_neg htouch, if_pos rfl]

theorem resolve_voltageIndex {p : Params} (hp : p.Valid) : resolve p p.VOLTAGE_INDEX = .voltage := by
  have h := not_covers_of_earlier hp (p.ranges.take 6) rfl (covers_one_iff.2 rfl)
  simp only [Numbers.ranges, List.take_succ_cons, List.take_zero, List.forall_mem_cons, covers_one_iff] at h
  obtain ⟨hservo, hrelay, hdio₁, hdio₂, htouch, hcurrent, -⟩ := h
  rw [resolve, if_neg hservo, if_neg hrelay, if_neg hdio₁, if_neg hdio₂, if_neg htouch, if_neg hcurrent, if_pos rfl]

/-! ### A write to a sensor -/

/-- R155: the write rule of a sensor adds its condition to the observation and changes nothing else. -/
theorem writeSensor_eq (k : Nat) (s : State) :
    writeSensor k s = { s with trace := s.trace ++ [.condition (.readOnlyWrite k)] } :=
  rfl

/-! ### The statements -/

/-- Settles O39: each of the three sensor rows is resolved to its entry, and all three entries share one write rule. -/
theorem sensorWriteIsIgnored : Obligations.SensorWriteIsIgnored := by
  intro p hp k v s hk
  rcases hk with htouch | rfl | rfl
  · simp only [routerWrite, resolve_of_touch hp htouch, writeSensor_eq]
  · simp only [routerWrite, resolve_currentIndex hp, writeSensor_eq]
  · simp only [routerWrite, resolve_voltageIndex hp, writeSensor_eq]

end Sys2Proof.Machine

/-!
The command dispatcher (spec/43_command_dispatcher.md): validation (R191), the loops of SET and GET (R192, R193), the
response (R194), and the bytes a step appends to the output stream (R195).
-/

namespace Sys2Proof.Machine

open Sys2Proof.Config

/-! ### Dispatch by kind -/

theorem dispatch_of_set {p : Params} {pkt : Packet} (hcount : validCount p pkt.count) (hkind : pkt.kind = .set) (s : State) :
    dispatch p pkt s = dispatchSet p pkt s := by
  rw [dispatch, if_pos hcount, hkind]

theorem dispatch_of_get {p : Params} {pkt : Packet} (hcount : validCount p pkt.count) (hkind : pkt.kind = .get) (s : State) :
    dispatch p pkt s = dispatchGet p pkt s := by
  rw [dispatch, if_pos hcount, hkind]

/-! ### The loops over the indices -/

/-- R192: the writes are the spec's loop over `i`, ascending. -/
theorem writeAll_eq_foldl (p : Params) (k : Nat) (vs : List Raw) (s : State) :
    writeAll p k vs s = (List.range vs.length).foldl (fun st i => routerWrite p (k + i) (vs.getD i 0) st) s := by
  induction vs generalizing k s with
  | nil => rfl
  | cons v vs ih =>
    rw [writeAll, ih, List.length_cons, List.range_succ_eq_map, List.foldl_cons, List.foldl_map]
    simp [Nat.add_assoc, Nat.add_comm 1]

theorem dispatchSet_output (p : Params) (pkt : Packet) (s : State) : (dispatchSet p pkt s).output = s.output := by
  obtain ⟨es, hes, -⟩ := writeAll_spec p pkt.startIndex.toNat pkt.vals s
  rw [dispatchSet, hes]

/-- One turn of R193's loop: the answer of index `k + i` is appended to those collected so far. -/
def appendRead (p : Params) (k : Nat) (acc : List Raw × State) (i : Nat) : List Raw × State :=
  (acc.1 ++ [(routerRead p (k + i) acc.2).1], (routerRead p (k + i) acc.2).2)

/-- R193: the loop over `i`, ascending, appends the answers of `readAll` to those collected before it. -/
theorem foldl_appendRead (p : Params) (k n : Nat) (acc : List Raw × State) :
    (List.range n).foldl (appendRead p k) acc = (acc.1 ++ (readAll p k n acc.2).1, (readAll p k n acc.2).2) := by
  induction n generalizing k acc with
  | zero => simp [readAll]
  | succ n ih =>
    have hshift : (fun acc i => appendRead p k acc (i + 1)) = appendRead p (k + 1) := by
      funext acc i
      simp [appendRead, Nat.add_assoc, Nat.add_comm 1]
    rw [List.range_succ_eq_map, List.foldl_cons, List.foldl_map, hshift, ih]
    simp [appendRead, readAll]

/-! ### The bytes of an event list -/

theorem filterMap_txByte_routerEvents {es : List Event} (h : ∀ e ∈ es, e.isRouterEvent = true) :
    es.filterMap Event.txByte = [] := by
  rw [List.filterMap_eq_nil_iff]
  intro e he
  have hrouter := h e he
  cases e with
  | tx b => cases hrouter
  | packetReady pkt => rfl
  | call c => rfl
  | condition c => rfl

theorem filterMap_txByte_map_tx (bs : List Byte) : (bs.map Event.tx).filterMap Event.txByte = bs := by
  rw [List.filterMap_map]
  exact List.filterMap_some

theorem packetReady_notMem_routerEvents {es : List Event} (h : ∀ e ∈ es, e.isRouterEvent = true) (pkt : Packet) :
    .packetReady pkt ∉ es :=
  fun hmem => Bool.false_ne_true (h _ hmem)

/-! ### What a dispatch and a step emit -/

/-- R195: the bytes the dispatch of a packet appends to the output stream: one response frame for a GET with a valid count,
none for any other packet. -/
def Emitted (p : Params) (pkt : Packet) (bytes : List Byte) : Prop :=
  (pkt.kind = .get → validCount p pkt.count →
    ∃ resp : List Raw, resp.length = pkt.count.toNat ∧ bytes = respFrame p pkt.startIndex pkt.count resp) ∧
  (pkt.kind = .set ∨ ¬ validCount p pkt.count → bytes = [])

/-- R193 to R195: a dispatch makes router events first, and then its bytes are appended to the output stream with their
events. -/
theorem dispatch_emits (p : Params) (pkt : Packet) (s : State) :
    ∃ (es : List Event) (bytes : List Byte), (∀ e ∈ es, e.isRouterEvent = true) ∧ Emitted p pkt bytes ∧
      (dispatch p pkt s).trace = s.trace ++ es ++ bytes.map Event.tx ∧
      (dispatch p pkt s).output = s.output ++ bytes := by
  rcases dispatch_cases p pkt s with ⟨hcount, h⟩ | ⟨-, hkind, es, h, hes⟩ | ⟨hcount, hkind, env, es, resp, hlen, h, hes⟩
  · exact ⟨[.condition (.malformedPacket pkt.kind pkt.startIndex pkt.count)], [], by simp [Event.isRouterEvent],
      ⟨fun _ hvalid => absurd hvalid hcount, fun _ => rfl⟩, by simp [h], by simp [h]⟩
  · exact ⟨es, [], hes, ⟨by simp [hkind], fun _ => rfl⟩, by simp [h], by simp [h]⟩
  · exact ⟨es, _, hes, ⟨fun _ _ => ⟨resp, hlen, rfl⟩, by simp [hkind, hcount]⟩, by rw [h], by rw [h]⟩

/-- R190, R195: what a completed packet adds to the observation has one packet-ready signal, its own, and the bytes its
dispatch emits. -/
theorem dispatch_packetReady_emits (p : Params) (pkt : Packet) (s : State) :
    ∃ es : List Event, (dispatch p pkt (s.packetReady p pkt)).trace = s.trace ++ es ∧
      (dispatch p pkt (s.packetReady p pkt)).output = s.output ++ es.filterMap Event.txByte ∧
      Emitted p pkt (es.filterMap Event.txByte) ∧ ∀ pkt', .packetReady pkt' ∈ es ↔ pkt' = pkt := by
  obtain ⟨es, bytes, hrouter, hemitted, htrace, houtput⟩ := dispatch_emits p pkt (s.packetReady p pkt)
  have hbytes : (Event.packetReady pkt :: (es ++ bytes.map Event.tx)).filterMap Event.txByte = bytes := by
    rw [List.filterMap_cons_none rfl, List.filterMap_append, filterMap_txByte_routerEvents hrouter,
      filterMap_txByte_map_tx, List.nil_append]
  refine ⟨.packetReady pkt :: (es ++ bytes.map Event.tx), ?_, ?_, ?_, ?_⟩
  · simp [htrace]
  · rw [hbytes, houtput, State.packetReady_output]
  · rwa [hbytes]
  · simp [packetReady_notMem_routerEvents hrouter]

/-- R121: abandoning a frame adds conditions to the observation, and changes neither the streams nor the environment. -/
theorem abandonFrame_spec (p : Params) (b : Byte) (s : State) :
    ∃ cs : List Condition, (abandonFrame p b s).trace = s.trace ++ cs.map Event.condition ∧
      (abandonFrame p b s).output = s.output ∧ (abandonFrame p b s).env = s.env ∧
      (abandonFrame p b s).input = s.input := by
  rw [abandonFrame_eq]
  by_cases hidle : s.phase = .idle
  · exact ⟨[], by simp [hidle]⟩
  · exact ⟨[.frameAborted s.phase b], by simp [hidle]⟩

/-- R190, R121: a step of an instruction in one of two cases. It completes no packet, and then only conditions are added to
the observation, and neither the streams nor the environment change. Or its data byte completes a packet, which is handed
over and dispatched. -/
theorem exec_cases {i : Instr} {s t : State} (h : exec i s = .next t) :
    (∃ cs : List Condition, t.trace = s.trace ++ cs.map Event.condition ∧ t.output = s.output ∧ t.env = s.env ∧
      t.input = s.input) ∨
    (∃ d pkt, i = .data d ∧ t = dispatch params pkt (s.packetReady params pkt)) := by
  cases i with
  | set =>
    cases h
    exact .inl (abandonFrame_spec params _ s)
  | get =>
    cases h
    exact .inl (abandonFrame_spec params _ s)
  | invalidMarker b =>
    cases h
    obtain ⟨cs, htrace, hrest⟩ := abandonFrame_spec params b s
    exact .inl ⟨cs ++ [.framingError b], by simp [htrace], hrest⟩
  | data d =>
    rw [exec_data] at h
    cases hparse : parseData params (d.setWidth 8) s with
    | error f => simp [hparse, drive] at h
    | ok parsed =>
      obtain ⟨t', r⟩ := parsed
      rw [hparse] at h
      rcases parseData_cases hparse with ⟨rfl, houtput, henv, hinput, htrace⟩ | ⟨pkt, rfl, rfl, -⟩
      · cases h
        rcases htrace with htrace | htrace
        · exact .inl ⟨[], by simp [htrace], houtput, henv, hinput⟩
        · exact .inl ⟨[.strayData (d.setWidth 8)], by simp [htrace], houtput, henv, hinput⟩
      · cases h
        exact .inr ⟨d, pkt, rfl, rfl⟩

/-! ### The statements -/

/-- Settles O26: the two clauses are the two branches of R191, and the second goes by the kind. -/
theorem onlyValidCountsAreDispatched : Obligations.OnlyValidCountsAreDispatched := by
  intro p pkt s
  refine ⟨fun hinvalid => ?_, fun hmin hmax => ⟨fun hkind => ?_, fun hkind => ?_⟩⟩
  · have hcount : ¬ validCount p pkt.count := by
      rintro ⟨hmin, hmax⟩
      omega
    rw [dispatch_of_not_validCount hcount]
    rfl
  · exact dispatch_of_set ⟨hmin, hmax⟩ hkind s
  · exact dispatch_of_get ⟨hmin, hmax⟩ hkind s

/-- Settles O27: the SET's recursion over its values is the loop over the indices, and a write emits nothing. -/
theorem setWritesInIndexOrder : Obligations.SetWritesInIndexOrder := by
  intro p pkt s hkind hmin hmax hlen
  rw [dispatch_of_set ⟨hmin, hmax⟩ hkind, ← hlen]
  exact ⟨writeAll_eq_foldl p pkt.startIndex.toNat pkt.vals s, dispatchSet_output p pkt s⟩

/-- Settles O28: the loop collects the answers of `readAll`, and `txAll` then appends the frame that carries them. -/
theorem getReadsThenResponds : Obligations.GetReadsThenResponds := by
  intro p pkt s hkind hmin hmax got hgot
  have hread : got = readAll p pkt.startIndex.toNat pkt.count.toNat s :=
    hgot.trans (foldl_appendRead p pkt.startIndex.toNat pkt.count.toNat ([], s))
  obtain ⟨hlen, -⟩ := readAll_spec p pkt.startIndex.toNat pkt.count.toNat s
  rw [dispatch_of_get ⟨hmin, hmax⟩ hkind, dispatchGet, State.txAll_eq, ← hread]
  exact ⟨hread ▸ hlen, rfl⟩

/-- Settles O59: a step that completes no packet adds conditions only; one that completes a packet adds the packet-ready
signal and what its dispatch makes, so the bytes are those the packet's kind and count call for. -/
theorem outputIsExactlyTheResponses : Obligations.OutputIsExactlyTheResponses := by
  intro i s t h
  rcases exec_cases h with ⟨cs, htrace, houtput, -⟩ | ⟨d, pkt, -, rfl⟩
  · have hrouter : ∀ e ∈ cs.map Event.condition, e.isRouterEvent = true := by simp [Event.isRouterEvent]
    have hbytes := filterMap_txByte_routerEvents hrouter
    exact ⟨_, htrace, by rw [hbytes, houtput, List.append_nil],
      fun pkt hready => absurd hready (packetReady_notMem_routerEvents hrouter pkt), fun _ => hbytes⟩
  · obtain ⟨es, htrace, houtput, ⟨hframe, hnone⟩, hready⟩ := dispatch_packetReady_emits params pkt s
    refine ⟨es, htrace, houtput, fun pkt' hmem => ?_, fun hall => hnone (hall pkt ((hready pkt).2 rfl))⟩
    obtain rfl := (hready pkt').1 hmem
    exact hframe

end Sys2Proof.Machine

/-!
Encoding and the value codec (spec/30_encoding.md R70 to R83, spec/40_value_codec.md R100 to R105): the class of a byte, the
two groups of a value as numbers, and the value pairs of a frame.
-/

namespace Sys2Proof

open Sys2Proof.Config Sys2Proof.Machine

/-! ### The parameters -/

/-- The default scale of the touch and of the voltage sensors, as R8 writes it. -/
theorem defaultVoltScale_eq : params.TOUCH_SCALE = 310303 / 1000 ∧ params.VOLT_SCALE = 310303 / 1000 := by
  have h := Rat.num_div_den params.TOUCH_SCALE
  have hden : params.TOUCH_SCALE.den = 1000 := rfl
  have hnum : params.TOUCH_SCALE.num = 310303 := rfl
  rw [hnum, hden] at h
  exact ⟨h.symm, h.symm⟩

theorem defaultCurrentLsb_eq : params.CURRENT_LSB = 814 / 10000 := by
  have hnum : params.CURRENT_LSB.num = 407 := rfl
  have hden : params.CURRENT_LSB.den = 5000 := rfl
  rw [← Rat.num_div_den params.CURRENT_LSB, hnum, hden]
  norm_num

/-- Settles O12: R9's constraints on the literal parameters are decidable. -/
theorem defaultParametersAreValid : Obligations.DefaultParametersAreValid := by
  obtain ⟨htouch, hvolt⟩ := defaultVoltScale_eq
  exact ⟨by decide, rfl, rfl, rfl, rfl, rfl, rfl, rfl, rfl, rfl, rfl, rfl, rfl, rfl, rfl, rfl, rfl, rfl, rfl, rfl,
    htouch, hvolt, defaultCurrentLsb_eq, rfl, rfl, rfl⟩

theorem params_valid : params.Valid :=
  defaultParametersAreValid.1

/-! ### The class of a byte -/

/-- R9: the two recognised markers differ, and both have bit 7 set. -/
theorem markers_of_valid {p : Params} (hp : p.Valid) :
    p.SET_MARKER ≠ p.GET_MARKER ∧ p.SET_MARKER.msb = true ∧ p.GET_MARKER.msb = true := by
  obtain ⟨-, -, -, hne, hset, hget, -⟩ := hp
  exact ⟨hne, hset, hget⟩

/-- R9, R70: a byte with bit 7 clear is neither recognised marker. -/
theorem ne_markers_of_msb_false {p : Params} (hp : p.Valid) {b : Byte} (hb : b.msb = false) :
    b ≠ p.SET_MARKER ∧ b ≠ p.GET_MARKER := by
  obtain ⟨-, hset, hget⟩ := markers_of_valid hp
  constructor <;> rintro rfl <;> simp_all

theorem decodeByteWith_setMarker (p : Params) : decodeByteWith p p.SET_MARKER = .set :=
  if_pos rfl

theorem decodeByteWith_getMarker {p : Params} (hp : p.Valid) : decodeByteWith p p.GET_MARKER = .get := by
  obtain ⟨hne, -⟩ := markers_of_valid hp
  rw [decodeByteWith, if_neg hne.symm, if_pos rfl]

theorem decodeByteWith_of_unrecognised {p : Params} {b : Byte} (hmsb : b.msb = true) (hset : b ≠ p.SET_MARKER)
    (hget : b ≠ p.GET_MARKER) : decodeByteWith p b = .invalidMarker b := by
  rw [decodeByteWith, if_neg hset, if_neg hget, if_pos hmsb]

theorem decodeByteWith_of_msb_false {p : Params} (hp : p.Valid) {b : Byte} (hmsb : b.msb = false) :
    decodeByteWith p b = .data (b.setWidth PAYLOAD_BITS) := by
  obtain ⟨hset, hget⟩ := ne_markers_of_msb_false hp hmsb
  rw [decodeByteWith, if_neg hset, if_neg hget, if_neg (by simp [hmsb])]

/-- R55: bit 7 of the byte of a payload is clear. -/
theorem msb_dataByte (d : Group) : (d.setWidth 8 : Byte).msb = false := by
  simp [BitVec.msb_setWidth]

theorem setWidth_dataByte (d : Group) : (d.setWidth 8 : Byte).setWidth PAYLOAD_BITS = d :=
  BitVec.setWidth_setWidth_of_le d (by decide)

/-- R55: a byte with bit 7 clear is the byte of its payload. -/
theorem dataByte_setWidth {b : Byte} (hmsb : b.msb = false) : (b.setWidth PAYLOAD_BITS).setWidth 8 = b := by
  have hlt : 2 * b.toNat < 2 ^ 8 := (BitVec.msb_eq_false_iff_two_mul_lt).1 hmsb
  apply BitVec.eq_of_toNat_eq
  simp only [BitVec.toNat_setWidth, PAYLOAD_BITS]
  omega

theorem decodeByteWith_dataByte {p : Params} (hp : p.Valid) (d : Group) : decodeByteWith p (d.setWidth 8) = .data d := by
  rw [decodeByteWith_of_msb_false hp (msb_dataByte d), setWidth_dataByte]

/-- R70, R71: the byte of a well-formed instruction has that instruction's class. -/
theorem decodeByteWith_encodeByteWith {p : Params} (hp : p.Valid) {i : Instr} (hi : wellFormedWith p i = true) :
    decodeByteWith p (encodeByteWith p i) = i := by
  cases i with
  | set => exact decodeByteWith_setMarker p
  | get => exact decodeByteWith_getMarker hp
  | invalidMarker b =>
    simp only [wellFormedWith, Bool.and_eq_true, bne_iff_ne] at hi
    obtain ⟨⟨hmsb, hset⟩, hget⟩ := hi
    exact decodeByteWith_of_unrecognised hmsb hset hget
  | data d => exact decodeByteWith_dataByte hp d

/-- Settles O2: the first byte of the stream is the instruction's, and it has the instruction's class. -/
theorem decodeEncodeRoundTrip : Obligations.DecodeEncodeRoundTrip := by
  intro p hp i hi rest
  rw [encodeWith, List.singleton_append, decodeWith, decodeByteWith_encodeByteWith hp hi]

/-- Settles O3: the four rows of R70's table exclude each other, and the class of each row is known. -/
theorem everyByteHasOneClass : Obligations.EveryByteHasOneClass := by
  intro p hp b
  obtain ⟨hne, hset, hget⟩ := markers_of_valid hp
  rcases hmsb : b.msb with _ | _
  · obtain ⟨hbset, hbget⟩ := ne_markers_of_msb_false hp hmsb
    simp [decodeByteWith_of_msb_false hp hmsb, wellFormedWith, encodeByteWith, dataByte_setWidth hmsb, hbset, hbget]
  by_cases hbset : b = p.SET_MARKER
  · subst hbset
    simp [decodeByteWith_setMarker, wellFormedWith, encodeByteWith, hne]
  by_cases hbget : b = p.GET_MARKER
  · subst hbget
    simp [decodeByteWith_getMarker hp, wellFormedWith, encodeByteWith, hne.symm]
  · simp [decodeByteWith_of_unrecognised hmsb hbset hbget, wellFormedWith, encodeByteWith, hmsb, hbset, hbget]

/-- Settles O1: six closed equations, one per byte written out from the table. -/
theorem specBytesDecode : Obligations.SpecBytesDecode :=
  ⟨rfl, rfl, rfl, rfl, rfl, rfl⟩

/-! ### The value codec -/

/-- R101: the two groups are the value's digits in base 128. -/
theorem decodeValue_toNat (lo hi : Byte) : (decodeValue lo hi).toNat = lo.toNat % 128 + 128 * (hi.toNat % 128) := by
  have hlow : lo.toNat % 128 < 2 ^ 7 := Nat.mod_lt _ (by decide)
  have hhigh := lowGroup_toNat hi
  unfold lowGroup at hhigh
  have hshift : (hi.toNat % 128) <<< 7 = 128 * (hi.toNat % 128) := by rw [Nat.shiftLeft_eq, Nat.mul_comm]
  have hfits : (hi.toNat % 128) <<< 7 < 2 ^ 14 := by omega
  rw [decodeValue, orHighGroup, BitVec.toNat_or, BitVec.toNat_shiftLeft, hhigh, lowGroup_toNat, Nat.lor_comm,
    Nat.mod_eq_of_lt hfits, ← Nat.shiftLeft_add_eq_or_of_lt hlow, hshift, Nat.add_comm]

/-- R103 on numbers: what the codec leaves of a natural. -/
theorem decodeValue_encodeValue_toNat (v : Nat) :
    (decodeValue (encodeValue v).1 (encodeValue v).2).toNat = v % 16384 := by
  rw [decodeValue_toNat, encodeValue_fst_toNat, encodeValue_snd_toNat]
  omega

/-- R102: the codec keeps a 14-bit value. -/
theorem decodeValue_encodeValue (v : Raw) : decodeValue (encodeValue v.toNat).1 (encodeValue v.toNat).2 = v := by
  apply BitVec.eq_of_toNat_eq
  rw [decodeValue_encodeValue_toNat]
  exact Nat.mod_eq_of_lt v.isLt

theorem toNat_lt_of_msb_false {b : Byte} (hmsb : b.msb = false) : b.toNat < 128 := by
  have := (BitVec.msb_eq_false_iff_two_mul_lt).1 hmsb
  omega

theorem msb_false_of_toNat_lt {b : Byte} (hlt : b.toNat < 128) : b.msb = false :=
  (BitVec.msb_eq_false_iff_two_mul_lt).2 (by omega)

/-- R105: both bytes of an encoded value have bit 7 clear. -/
theorem msb_encodeValue (v : Nat) : (encodeValue v).1.msb = false ∧ (encodeValue v).2.msb = false :=
  ⟨msb_false_of_toNat_lt (by rw [encodeValue_fst_toNat]; omega),
    msb_false_of_toNat_lt (by rw [encodeValue_snd_toNat]; omega)⟩

/-- Settles O4: both halves are equations on the base-128 digits. -/
theorem codecIsInverse : Obligations.CodecIsInverse := by
  refine ⟨decodeValue_encodeValue, fun lo hi hlo hhi => ?_⟩
  have hlo := toNat_lt_of_msb_false hlo
  have hhi := toNat_lt_of_msb_false hhi
  refine Prod.ext (BitVec.eq_of_toNat_eq ?_) (BitVec.eq_of_toNat_eq ?_)
  · rw [encodeValue_fst_toNat, decodeValue_toNat]
    dsimp only
    omega
  · rw [encodeValue_snd_toNat, decodeValue_toNat]
    dsimp only
    omega

/-- Settles O5: both sides are the natural modulo 2^14. -/
theorem codecTruncates : Obligations.CodecTruncates := by
  refine fun v => ⟨decodeValue_encodeValue_toNat v, ?_⟩
  apply BitVec.eq_of_toNat_eq
  rw [decodeValue_encodeValue_toNat, wrap14, BitVec.ofInt_natCast, BitVec.toNat_ofNat]
  rfl

/-- Settles O6: bit 7 of both bytes is clear, and such a byte is a data byte. -/
theorem encodedBytesAreData : Obligations.EncodedBytesAreData := by
  intro p hp v
  obtain ⟨hlo, hhi⟩ := msb_encodeValue v
  exact ⟨hlo, hhi, ⟨_, decodeByteWith_of_msb_false hp hlo⟩, _, decodeByteWith_of_msb_false hp hhi⟩

/-- Settles O7: the high group is ORed into the low group that the slot then holds. -/
theorem incrementalAssemblyIsDecode : Obligations.IncrementalAssemblyIsDecode := by
  intro p s i lo hi hi_lt hi_len
  have hslot : (s.writeSlot i.toNat (lowGroup lo)).slot i.toNat = some (lowGroup lo) := by
    rw [State.slot_writeSlot _ _ _ _ hi_len, if_pos rfl]
  have hread := (State.readSlot_ok _ _ _).2 hslot
  simp only [State.storeLow, State.storeHigh, if_pos hi_lt, hread]
  simp [State.writeSlot, decodeValue]

/-! ### The value pairs of a frame -/

theorem length_valuePairs (vals : List Raw) : (valuePairs vals).length = 2 * vals.length := by
  induction vals with
  | nil => rfl
  | cons v vs ih =>
    simp only [valuePairs, List.length_cons, ih]
    omega

/-- R105 along a frame: no byte of a value pair can be taken for a marker. -/
theorem msb_of_mem_valuePairs {vals : List Raw} {b : Byte} (hb : b ∈ valuePairs vals) : b.msb = false := by
  induction vals with
  | nil => cases hb
  | cons v vs ih =>
    obtain ⟨hlo, hhi⟩ := msb_encodeValue v.toNat
    simp only [valuePairs, List.mem_cons] at hb
    rcases hb with rfl | rfl | hb
    · exact hlo
    · exact hhi
    · exact ih hb

/-- Settles O31: the pair of index `i` is the `i`-th pair of the recursion, and a pair decodes to its value. -/
theorem valuePairsCarryValues : Obligations.ValuePairsCarryValues := by
  intro vals i hi
  induction vals generalizing i with
  | nil => cases hi
  | cons v vs ih =>
    cases i with
    | zero => exact ⟨_, _, rfl, rfl, by rw [decodeValue_encodeValue]; rfl⟩
    | succ i => exact ih i (Nat.lt_of_succ_lt_succ hi)

/-- Settles O30: the marker is followed by two 7-bit fields and the value pairs, which are data bytes. -/
theorem responseFrameShape : Obligations.ResponseFrameShape := by
  intro p hp start count vals hstart hcount hlen
  obtain ⟨-, -, hget⟩ := markers_of_valid hp
  refine ⟨?_, _, rfl, hget, fun b hb => ?_⟩
  · simp only [respFrame, List.length_cons, length_valuePairs, hlen]
    omega
  · rcases List.mem_cons.1 hb with rfl | hb
    · exact msb_false_of_toNat_lt (by rw [BitVec.setWidth_eq]; omega)
    rcases List.mem_cons.1 hb with rfl | hb
    · exact msb_false_of_toNat_lt (by rw [BitVec.setWidth_eq]; omega)
    · exact msb_of_mem_valuePairs hb

end Sys2Proof

/-!
The packet parser in the value phases (spec/41_packet_parser.md R130 to R133): a low group, a high group that continues the
frame, the last high group; the reads of unwritten packet registers (spec/10_state.md R28); and the marker bytes' effects
(R124, R135, spec/10_state.md R32).
-/

namespace Sys2Proof.Machine

open Sys2Proof.Config

/-! ### The value buffer -/

theorem State.storeHigh_of_slot {p : Params} {i : Byte} {s : State} {v : Raw} (hi : i.toNat < p.MAX_VALUES)
    (hv : s.slot i.toNat = some v) (b : Byte) :
    s.storeHigh p i b = .ok (s.writeSlot i.toNat (orHighGroup v b)) := by
  simp only [State.storeHigh, if_pos hi, (s.readSlot_ok _ v).2 hv]

theorem State.storeHigh_of_unwritten {p : Params} {i : Byte} {s : State} (hi : i.toNat < p.MAX_VALUES)
    (hv : s.slot i.toNat = none) (b : Byte) : s.storeHigh p i b = .error (.unwrittenValue i.toNat) := by
  simp only [State.storeHigh, if_pos hi, State.readSlot, hv]

theorem State.storeHigh_past_buffer {p : Params} {i : Byte} (hi : p.MAX_VALUES ≤ i.toNat) (s : State) (b : Byte) :
    s.storeHigh p i b = .ok s :=
  if_neg (Nat.not_lt.2 hi)

/-- R28, R133: a high group is stored unless its slot is in the buffer and unwritten. -/
theorem State.exists_storeHigh {p : Params} {i : Byte} {s : State} (h : i.toNat < p.MAX_VALUES → s.slot i.toNat ≠ none)
    (b : Byte) : ∃ t, s.storeHigh p i b = .ok t := by
  by_cases hi : i.toNat < p.MAX_VALUES
  · obtain ⟨v, hv⟩ := Option.ne_none_iff_exists'.1 (h hi)
    exact ⟨_, State.storeHigh_of_slot hi hv b⟩
  · exact ⟨s, State.storeHigh_past_buffer (Nat.le_of_not_lt hi) s b⟩

/-- A high group is ORed into its own slot, and the other slots are as they were. -/
theorem State.slot_storeHigh {p : Params} {i b : Byte} {s t : State} (h : s.storeHigh p i b = .ok t) {j : Nat} {v : Raw}
    (hj : j < p.MAX_VALUES) (hv : s.slot j = some v) :
    t.slot j = some (if j = i.toNat then orHighGroup v b else v) := by
  rcases State.storeHigh_ok h with ⟨-, w, hw, rfl⟩ | ⟨hi, rfl⟩
  · rw [State.slot_writeSlot _ _ _ _ (State.lt_length_of_slot hw)]
    by_cases hji : j = i.toNat
    · subst hji
      simp_all
    · simp [hji, hv]
  · rw [if_neg (by omega), hv]

/-- A high group writes no unwritten slot. -/
theorem State.slot_storeHigh_eq_none {p : Params} {i b : Byte} {s t : State} (h : s.storeHigh p i b = .ok t) (j : Nat) :
    t.slot j = none ↔ s.slot j = none := by
  rcases State.storeHigh_ok h with ⟨-, w, hw, rfl⟩ | ⟨-, rfl⟩
  · rw [State.slot_writeSlot _ _ _ _ (State.lt_length_of_slot hw)]
    by_cases hji : j = i.toNat
    · simp [hji, hw]
    · simp [hji]
  · rfl

theorem State.storeHigh_count {p : Params} {i b : Byte} {s t : State} (h : s.storeHigh p i b = .ok t) : t.count = s.count := by
  rcases State.storeHigh_ok h with ⟨-, w, -, rfl⟩ | ⟨-, rfl⟩ <;> rfl

theorem State.storeHigh_startIndex {p : Params} {i b : Byte} {s t : State} (h : s.storeHigh p i b = .ok t) :
    t.startIndex = s.startIndex := by
  rcases State.storeHigh_ok h with ⟨-, w, -, rfl⟩ | ⟨-, rfl⟩ <;> rfl

/-- R28: of the slots `a .. a+n-1` the first unwritten one is named. -/
theorem State.readSlots_error {s : State} {a m n : Nat} (hmn : m < n) (hnone : s.slot (a + m) = none)
    (hwritten : ∀ k, k < m → s.slot (a + k) ≠ none) : s.readSlots a n = .error (.unwrittenValue (a + m)) := by
  induction m generalizing a n with
  | zero =>
    obtain ⟨n, rfl⟩ := Nat.exists_eq_succ_of_ne_zero (Nat.ne_of_gt hmn)
    simp only [Nat.add_zero] at hnone
    simp only [State.readSlots, State.readSlot, hnone, Nat.add_zero]
  | succ m ih =>
    obtain ⟨n, rfl⟩ := Nat.exists_eq_succ_of_ne_zero (Nat.ne_zero_of_lt hmn)
    obtain ⟨v, hv⟩ := Option.ne_none_iff_exists'.1 (hwritten 0 m.succ_pos)
    have hshift : ∀ k, a + 1 + k = a + (k + 1) := fun k => by omega
    have htail := ih (a := a + 1) (Nat.lt_of_succ_lt_succ hmn) (hshift m ▸ hnone)
      fun k hk => hshift k ▸ hwritten (k + 1) (Nat.succ_lt_succ hk)
    simp only [State.readSlots, (s.readSlot_ok a v).2 hv, htail, hshift]

/-! ### Data bytes in the value phases -/

theorem parseData_of_awaitValueLow {s : State} {i : Byte} (h : s.phase = .awaitValueLow i) (p : Params) (b : Byte) :
    parseData p b s = parseValueLow p i b s := by
  simp only [parseData, h]

theorem parseData_of_awaitValueHigh {s : State} {i : Byte} (h : s.phase = .awaitValueHigh i) (p : Params) (b : Byte) :
    parseData p b s = parseValueHigh p i b s := by
  simp only [parseData, h]

theorem drive_error (p : Params) (f : Fault) : drive p (.error f) = .fault f :=
  rfl

theorem parseValueHigh_of_error {p : Params} {i b : Byte} {s : State} {f : Fault} (h : s.storeHigh p i b = .error f) :
    parseValueHigh p i b s = .error f := by
  simp only [parseValueHigh, h]

/-- R131, R132: the high group stored, the parser goes by `i + 1 = count`. -/
theorem parseValueHigh_of_count {p : Params} {i b : Byte} {s t : State} {c : Count} (h : s.storeHigh p i b = .ok t)
    (hc : s.count = some c) :
    parseValueHigh p i b s = if i.toNat + 1 = c.toNat then completeValues p c t else nextPair i t := by
  simp only [parseValueHigh, h, State.readCount, State.storeHigh_count h, hc]

/-- R132: the packet takes the slots it has read. -/
theorem completeValues_of_slots {p : Params} {c : Count} {s : State} {start : Index} {vals : List Raw}
    (hstart : s.startIndex = some start) (hvals : s.readSlots 0 (min c.toNat p.MAX_VALUES) = .ok vals) :
    completeValues p c s = complete p { kind := .set, startIndex := start, count := c, vals := vals } s := by
  simp only [completeValues, (s.readStartIndex_ok start).2 hstart, hvals]

/-! ### Reads of unwritten packet registers -/

theorem parseCount_of_kind_none {s : State} (h : s.kind = none) (p : Params) (b : Byte) :
    parseCount p b s = .error .unwrittenKind := by
  simp only [parseCount, State.readKind, h]

theorem completeAtCount_of_startIndex_none {s : State} (h : s.startIndex = none) (p : Params) (k : Kind) (b : Byte) :
    completeAtCount p k b s = .error .unwrittenStartIndex := by
  simp only [completeAtCount, State.readStartIndex, h]

theorem parseValueHigh_of_count_none {p : Params} {i b : Byte} {s t : State} (h : s.storeHigh p i b = .ok t)
    (hc : s.count = none) : parseValueHigh p i b s = .error .unwrittenCount := by
  simp only [parseValueHigh, h, State.readCount, State.storeHigh_count h, hc]

theorem completeValues_of_startIndex_none {s : State} (h : s.startIndex = none) (p : Params) (c : Count) :
    completeValues p c s = .error .unwrittenStartIndex := by
  simp only [completeValues, State.readStartIndex, h]

theorem completeValues_of_readSlots_error {p : Params} {c : Count} {s : State} {f : Fault} (hstart : s.startIndex ≠ none)
    (hslots : s.readSlots 0 (min c.toNat p.MAX_VALUES) = .error f) : completeValues p c s = .error f := by
  obtain ⟨start, hstart⟩ := Option.ne_none_iff_exists'.1 hstart
  simp only [completeValues, (s.readStartIndex_ok start).2 hstart, hslots]

/-! ### The statements on data bytes -/

/-- Settles O22: the low group of a data byte is its payload. -/
theorem lowGroupIsStored : Obligations.LowGroupIsStored := by
  intro d s i hphase
  rw [exec_data, parseData_of_awaitValueLow hphase, parseValueLow, State.storeLow_eq, lowGroup_data]
  rfl

/-- Settles O23: before the last pair the high group is stored, or discarded past the buffer, and the next pair awaited. -/
theorem highGroupContinuesFrame : Obligations.HighGroupContinuesFrame := by
  intro d s i c hphase hcount hnext
  refine ⟨fun v hi hv => ?_, fun hi => ?_⟩
  · rw [exec_data, parseData_of_awaitValueHigh hphase,
      parseValueHigh_of_count (State.storeHigh_of_slot hi hv _) hcount, if_neg (Nat.ne_of_lt hnext), orHighGroup_data]
    rfl
  · rw [exec_data, parseData_of_awaitValueHigh hphase,
      parseValueHigh_of_count (State.storeHigh_past_buffer hi s _) hcount, if_neg (Nat.ne_of_lt hnext)]
    rfl

/-- Settles O24: the last high group is stored, the slots are then read in order, and the packet is handed over. -/
theorem lastHighGroupCompletesSet : Obligations.LastHighGroupCompletesSet := by
  rintro d s i c start old hphase hcount hstart hlast hslots pkt rfl
  obtain ⟨t, ht⟩ : ∃ t, s.storeHigh params i (d.setWidth 8) = .ok t :=
    State.exists_storeHigh (fun hi => by simp [hslots i.toNat (by omega)]) _
  have hread := State.readSlots_ok t (fun j => if j = i.toNat then orHighGroup (old j) (d.setWidth 8) else old j) 0
    (min c.toNat params.MAX_VALUES) fun j _ hj => State.slot_storeHigh ht (by omega) (hslots j (by omega))
  simp only [Nat.zero_add, orHighGroup_data] at hread
  rw [exec_data, parseData_of_awaitValueHigh hphase, parseValueHigh_of_count ht hcount, if_pos hlast,
    completeValues_of_slots ((State.storeHigh_startIndex ht).trans hstart) hread, drive_complete,
    State.packetReady_storeHigh ht, State.packetReady_eq]

/-- Settles O25: the reads of R139 in their order, each with the fault of the first register found unwritten. -/
theorem unwrittenFieldReadFaults : Obligations.UnwrittenFieldReadFaults := by
  intro d s
  refine ⟨fun hphase hkind => ?_, fun hphase hkind hstart => ?_, fun hd hphase hkind hstart => ?_, fun i hphase => ?_⟩
  · rw [exec_data, parseData_of_awaitCount hphase, parseCount_of_kind_none hkind, drive_error]
  · rw [exec_data, parseData_of_awaitCount hphase, parseCount_of_get hkind, completeAtCount_of_startIndex_none hstart,
      drive_error]
  · rw [exec_data, parseData_of_awaitCount hphase, parseCount_of_set hkind, if_pos ((dataByte_eq_zero_iff d).2 hd),
      completeAtCount_of_startIndex_none hstart, drive_error]
  rw [exec_data, parseData_of_awaitValueHigh hphase]
  refine ⟨fun hi hslot => ?_, fun hslot => ?_⟩
  · rw [parseValueHigh_of_error (State.storeHigh_of_unwritten hi hslot _), drive_error]
  obtain ⟨t, ht⟩ := State.exists_storeHigh hslot (d.setWidth 8)
  refine ⟨fun hcount => ?_, fun c hcount hlast => ?_⟩
  · rw [parseValueHigh_of_count_none ht hcount, drive_error]
  rw [parseValueHigh_of_count ht hcount, if_pos hlast]
  refine ⟨fun hstart => ?_, fun hstart j hj hnone hwritten => ?_⟩
  · rw [completeValues_of_startIndex_none ((State.storeHigh_startIndex ht).trans hstart), drive_error]
  · have hread : t.readSlots 0 (min c.toNat params.MAX_VALUES) = .error (.unwrittenValue (0 + j)) :=
      State.readSlots_error hj (by rwa [Nat.zero_add, State.slot_storeHigh_eq_none ht])
        fun k hk => by rw [Nat.zero_add, Ne, State.slot_storeHigh_eq_none ht]; exact hwritten k hk
    rw [completeValues_of_readSlots_error (State.storeHigh_startIndex ht ▸ hstart) hread, drive_error, Nat.zero_add]

/-! ### Marker bytes -/

theorem exec_invalidMarker (b : Byte) (s : State) :
    exec (.invalidMarker b) s = .next ((abandonFrame params b s).raise (.framingError b)) :=
  rfl

/-- Settles O15: first R121, then the framing error. -/
theorem unrecognisedMarkerReturnsToIdle : Obligations.UnrecognisedMarkerReturnsToIdle := by
  intro b s
  rw [exec_invalidMarker, abandonFrame_eq]
  rfl

/-- R121, R135: the record of an abort is a condition, never a call, a packet or an output byte. -/
theorem abortEvents_inert (old : Phase) (b : Byte) :
    ∀ e ∈ abortEvents old b, e.isCall = false ∧ e.isReady = false ∧ e.txByte = none := by
  rw [abortEvents]
  split <;> simp [Event.isCall, Event.isReady, Event.txByte]

/-- R70: the class of a byte with bit 7 set, at the default markers. -/
theorem decodeByte_marker_cases {b : Byte} (hb : b.msb = true) :
    (b = params.SET_MARKER ∧ decodeByte b = .set) ∨ (b = params.GET_MARKER ∧ decodeByte b = .get) ∨
    (b ≠ params.SET_MARKER ∧ b ≠ params.GET_MARKER ∧ decodeByte b = .invalidMarker b) := by
  by_cases hset : b = params.SET_MARKER
  · exact .inl ⟨hset, hset ▸ decodeByteWith_setMarker params⟩
  by_cases hget : b = params.GET_MARKER
  · exact .inr (.inl ⟨hget, hget ▸ decodeByteWith_getMarker params_valid⟩)
  · exact .inr (.inr ⟨hset, hget, decodeByteWith_of_unrecognised hb hset hget⟩)

/-- Settles O16: the steps of the three marker classes are known in full. -/
theorem markerHasNoOutwardEffect : Obligations.MarkerHasNoOutwardEffect := by
  intro b hb s
  have habort := abortEvents_inert s.phase b
  rcases decodeByte_marker_cases hb with ⟨rfl, hdecode⟩ | ⟨rfl, hdecode⟩ | ⟨hset, hget, hdecode⟩
  · rw [hdecode]
    exact ⟨_, _, setMarkerStartsSetFrame s, rfl, habort, rfl, rfl, rfl, by simp⟩
  · rw [hdecode]
    exact ⟨_, _, getMarkerStartsGetFrame s, rfl, habort, rfl, rfl, rfl, by simp⟩
  · rw [hdecode]
    refine ⟨_, _, unrecognisedMarkerReturnsToIdle b s, List.append_assoc _ _ _, ?_, rfl, rfl, rfl, by simp [hset, hget]⟩
    simpa [or_imp, forall_and, Event.isCall, Event.isReady, Event.txByte] using habort

/-- Settles O60: the step of a recognised marker writes every field but the streams, the environment and the observation. -/
theorem markerForgetsOldFrame : Obligations.MarkerForgetsOldFrame := by
  rintro b s1 s2 hb houtput henv hinput
  rcases hb with rfl | rfl
  · rw [decodeByte, decodeByteWith_setMarker]
    exact ⟨_, _, setMarkerStartsSetFrame s1, setMarkerStartsSetFrame s2, by simp [houtput, henv, hinput], rfl, rfl, rfl, rfl⟩
  · rw [decodeByte, decodeByteWith_getMarker params_valid]
    exact ⟨_, _, getMarkerStartsGetFrame s1, getMarkerStartsGetFrame s2, by simp [houtput, henv, hinput], rfl, rfl, rfl, rfl⟩

end Sys2Proof.Machine

/-!
The step, reset and the reachable shape (spec/10_state.md R34, spec/70_reset_and_hazards.md R250, R263): what a step does
with the next input item, and R34's shape as an invariant of every instruction, every step and every run from reset.
-/

namespace Sys2Proof.Machine

open Sys2Proof.Config

/-! ### The step, by the next input item -/

theorem step_of_byte {s : State} {b : Byte} {rest : List Input} (h : s.input = .byte b :: rest) :
    step s = exec (decodeByte b) (s.setInput rest) := by
  simp only [step, h]

theorem step_of_reset {s : State} {rest : List Input} (h : s.input = .reset :: rest) :
    step s = .next ((s.setInput rest).applyReset params) := by
  simp only [step, h]

theorem step_of_no_input {s : State} (h : s.input = []) : step s = .next s := by
  simp only [step, h, State.wait]

/-- Settles O8: the decoder's answer on one byte is the class of that byte. -/
theorem stepRunsDecodedByte : Obligations.StepRunsDecodedByte := by
  intro s b rest i hinput hdecode
  cases hdecode
  exact step_of_byte hinput

/-- Settles O9: the next state is the reset event's, field by field. -/
theorem resetEventClearsPacket : Obligations.ResetEventClearsPacket := by
  intro s rest hinput
  rw [step_of_reset hinput]
  rfl

/-- Settles O10: waiting is the identity. -/
theorem coreWaitsForInput : Obligations.CoreWaitsForInput :=
  fun _ => step_of_no_input

/-- Settles O11: the reset state is written out, and its observation is empty. -/
theorem resetValues : Obligations.ResetValues :=
  ⟨rfl, ⟨rfl, rfl, rfl, rfl⟩, rfl, List.forall_mem_nil _⟩

/-! ### Which slots are written -/

theorem writtenExactly_replicate_none (m : Nat) : writtenExactly 0 (List.replicate m none) := by
  intro j hj
  rw [List.length_replicate] at hj
  simp [hj]

/-- R34: a write at or below the written slots keeps them without a gap. -/
theorem writtenExactly_set {n i : Nat} {vals : List (Option Raw)} (h : writtenExactly n vals) (hi : i ≤ n) (v : Raw) :
    writtenExactly (max n (i + 1)) (vals.set i (some v)) := by
  intro j hj
  rw [List.length_set] at hj
  by_cases hji : j = i
  · subst hji
    simp [hj]
  · rw [List.getElem?_set_ne (Ne.symm hji), h j hj]
    omega

theorem State.exists_slot_of_writtenExactly {n j : Nat} {s : State} (h : writtenExactly n s.values)
    (hlen : j < s.values.length) (hj : j < n) : ∃ v, s.slot j = some v :=
  Option.isSome_iff_exists.1 ((h j hlen).2 hj)

/-! ### The reachable shape -/

/-- R34 speaks of the phase and the packet registers only. -/
theorem State.inv_congr {p : Params} {s t : State} (hphase : t.phase = s.phase) (hkind : t.kind = s.kind)
    (hstart : t.startIndex = s.startIndex) (hcount : t.count = s.count) (hvalues : t.values = s.values) (h : s.Inv p) :
    t.Inv p := by
  unfold State.Inv at *
  rwa [hphase, hkind, hstart, hcount, hvalues]

theorem State.inv_of_idle {p : Params} {s : State} (hphase : s.phase = .idle) (h : s.Unwritten p) : s.Inv p := by
  obtain ⟨hkind, hstart, hcount, hvalues⟩ := h
  simp only [State.Inv, hphase, hkind, hstart, hcount, hvalues, List.length_replicate, true_and]
  exact writtenExactly_replicate_none p.MAX_VALUES

theorem State.inv_of_awaitStartIndex {p : Params} {s : State} {k : Kind} (hphase : s.phase = .awaitStartIndex)
    (hkind : s.kind = some k) (hstart : s.startIndex = none) (hcount : s.count = none)
    (hvalues : s.values = List.replicate p.MAX_VALUES none) : s.Inv p := by
  simp only [State.Inv, hphase, hkind, hstart, hcount, hvalues, List.length_replicate, Option.isSome_some, true_and]
  exact writtenExactly_replicate_none p.MAX_VALUES

/-- R28: what the dispatch leaves of the parser after a packet is handed over has R34's shape. -/
theorem dispatch_inv_of_idle {p : Params} {s : State} (hphase : s.phase = .idle) (h : s.Unwritten p) (pkt : Packet) :
    (dispatch p pkt s).Inv p := by
  obtain ⟨-, hp, hk, hs, hc, hv⟩ := dispatch_frame p pkt s
  exact State.inv_congr hp hk hs hc hv (State.inv_of_idle hphase h)

/-- R24, R25: a data byte's payload fits 7 bits. -/
theorem dataByte_toNat_le (d : Group) : (d.setWidth 8 : Byte).toNat ≤ 127 :=
  Nat.le_of_lt_succ (toNat_lt_of_msb_false (msb_dataByte d))

theorem dataByte_toNat_pos {d : Group} (hd : d ≠ 0) : 0 < (d.setWidth 8 : Byte).toNat := by
  rw [Nat.pos_iff_ne_zero]
  exact fun h => hd ((dataByte_eq_zero_iff d).1 (BitVec.eq_of_toNat_eq h))

/-- R26: below a count of 7 bits the slot register does not wrap. -/
theorem slotRegister_succ {i : Byte} {c : Count} (hc : c.toNat ≤ 127) (hi : i.toNat < c.toNat) :
    (i + 1).toNat = i.toNat + 1 := by
  rw [BitVec.toNat_add, show (1 : Byte).toNat = 1 from rfl]
  omega

/-! ### A data byte keeps the shape, by the phase -/

section

variable {s : State} (h : s.Inv params) (d : Group)
include h

theorem exec_data_inv_of_idle (hphase : s.phase = .idle) : ∃ t, exec (.data d) s = .next t ∧ t.Inv params :=
  ⟨_, strayDataIsDiscarded d s hphase, State.inv_congr rfl rfl rfl rfl rfl h⟩

theorem exec_data_inv_of_awaitStartIndex (hphase : s.phase = .awaitStartIndex) :
    ∃ t, exec (.data d) s = .next t ∧ t.Inv params := by
  simp only [State.Inv, hphase] at h
  obtain ⟨hlen, hkind, -, hcount, hwritten⟩ := h
  exact ⟨_, startIndexIsStored d s hphase, hlen, hkind, ⟨_, rfl, dataByte_toNat_le d⟩, hcount, hwritten⟩

theorem exec_data_inv_of_awaitCount (hphase : s.phase = .awaitCount) : ∃ t, exec (.data d) s = .next t ∧ t.Inv params := by
  simp only [State.Inv, hphase] at h
  obtain ⟨hlen, hkind, ⟨start, hstart, hstart_le⟩, -, hwritten⟩ := h
  obtain ⟨k, hk⟩ := Option.isSome_iff_exists.1 hkind
  cases k with
  | get => exact ⟨_, getCompletesAtCount d s start hphase hk hstart, dispatch_inv_of_idle rfl ⟨rfl, rfl, rfl, rfl⟩ _⟩
  | set =>
    by_cases hd : d = 0
    · subst hd
      exact ⟨_, zeroCountSetCompletesAndDrops s start hphase hk hstart, State.inv_of_idle rfl ⟨rfl, rfl, rfl, rfl⟩⟩
    · exact ⟨_, setCountBeginsValues d s hd hphase hk, hlen, hk, ⟨start, hstart, hstart_le⟩,
        ⟨_, rfl, dataByte_toNat_le d, dataByte_toNat_pos hd⟩, hwritten⟩

theorem exec_data_inv_of_awaitValueLow {i : Byte} (hphase : s.phase = .awaitValueLow i) :
    ∃ t, exec (.data d) s = .next t ∧ t.Inv params := by
  simp only [State.Inv, hphase] at h
  obtain ⟨hlen, hkind, hstart, hcount, hwritten⟩ := h
  refine ⟨_, lowGroupIsStored d s i hphase, ?_, hkind, hstart, hcount, ?_⟩
  · dsimp only
    split
    · rwa [List.length_set]
    · exact hlen
  · dsimp only
    split
    · have hset := writtenExactly_set hwritten (i := i.toNat) (by omega) (d.setWidth VALUE_BITS)
      rwa [show max (min i.toNat params.MAX_VALUES) (i.toNat + 1) = min (i.toNat + 1) params.MAX_VALUES by omega] at hset
    · rwa [show min i.toNat params.MAX_VALUES = min (i.toNat + 1) params.MAX_VALUES by omega] at hwritten

theorem exec_data_inv_of_awaitValueHigh {i : Byte} (hphase : s.phase = .awaitValueHigh i) :
    ∃ t, exec (.data d) s = .next t ∧ t.Inv params := by
  simp only [State.Inv, hphase] at h
  obtain ⟨hlen, hkind, ⟨start, hstart, hstart_le⟩, ⟨c, hcount, hc_le, hi_lt⟩, hwritten⟩ := h
  by_cases hlast : i.toNat + 1 = c.toNat
  · have hslots : ∀ j, j < min c.toNat params.MAX_VALUES → s.slot j = some ((s.slot j).getD 0) := fun j hj => by
      obtain ⟨v, hv⟩ := State.exists_slot_of_writtenExactly hwritten (j := j) (by omega) (by omega)
      rw [hv, Option.getD_some]
    exact ⟨_, lastHighGroupCompletesSet d s i c start _ hphase hcount hstart hlast hslots _ rfl,
      dispatch_inv_of_idle rfl ⟨rfl, rfl, rfl, rfl⟩ _⟩
  have hnext : i.toNat + 1 < c.toNat := by omega
  have hsucc := slotRegister_succ hc_le hi_lt
  obtain ⟨hstores, hdiscards⟩ := highGroupContinuesFrame d s i c hphase hcount hnext
  by_cases hi : i.toNat < params.MAX_VALUES
  · obtain ⟨v, hv⟩ := State.exists_slot_of_writtenExactly hwritten (j := i.toNat) (by omega) (by omega)
    have hset := writtenExactly_set hwritten (i := i.toNat) (by omega) (v ||| (d.setWidth VALUE_BITS <<< PAYLOAD_BITS))
    refine ⟨_, hstores v hi hv, by rwa [List.length_set], hkind, ⟨start, hstart, hstart_le⟩,
      ⟨c, hcount, hc_le, by rwa [hsucc]⟩, ?_⟩
    rwa [show max (min (i.toNat + 1) params.MAX_VALUES) (i.toNat + 1) = min (i + 1).toNat params.MAX_VALUES by omega] at hset
  · refine ⟨_, hdiscards (Nat.le_of_not_lt hi), hlen, hkind, ⟨start, hstart, hstart_le⟩,
      ⟨c, hcount, hc_le, by rwa [hsucc]⟩, ?_⟩
    rwa [hsucc]

end

/-! ### Every instruction, every step and every run keeps the shape -/

/-- R34: the invariant is inductive over the instructions. -/
theorem exec_inv {s : State} (h : s.Inv params) (i : Instr) : ∃ t, exec i s = .next t ∧ t.Inv params := by
  cases i with
  | set => exact ⟨_, setMarkerStartsSetFrame s, State.inv_of_awaitStartIndex rfl rfl rfl rfl rfl⟩
  | get => exact ⟨_, getMarkerStartsGetFrame s, State.inv_of_awaitStartIndex rfl rfl rfl rfl rfl⟩
  | invalidMarker b => exact ⟨_, unrecognisedMarkerReturnsToIdle b s, State.inv_of_idle rfl ⟨rfl, rfl, rfl, rfl⟩⟩
  | data d =>
    cases hphase : s.phase with
    | idle => exact exec_data_inv_of_idle h d hphase
    | awaitStartIndex => exact exec_data_inv_of_awaitStartIndex h d hphase
    | awaitCount => exact exec_data_inv_of_awaitCount h d hphase
    | awaitValueLow i => exact exec_data_inv_of_awaitValueLow h d hphase
    | awaitValueHigh i => exact exec_data_inv_of_awaitValueHigh h d hphase

/-- Settles O52: an input item is a byte, whose instruction keeps the shape, or the reset event, after which it holds. -/
theorem stepKeepsReachableShape : Obligations.StepKeepsReachableShape := by
  intro s h
  cases hinput : s.input with
  | nil => exact ⟨s, step_of_no_input hinput, h⟩
  | cons item rest =>
    cases item with
    | reset => exact ⟨_, step_of_reset hinput, State.inv_of_idle rfl ⟨rfl, rfl, rfl, rfl⟩⟩
    | byte b =>
      rw [step_of_byte hinput]
      exact exec_inv (s := s.setInput rest) (State.inv_congr rfl rfl rfl rfl rfl h) (decodeByte b)

/-- Settles O51: the reset state is `Idle` with every packet register unwritten. -/
theorem reachableShapeAtReset : Obligations.ReachableShapeAtReset :=
  State.inv_of_idle rfl ⟨rfl, rfl, rfl, rfl⟩

/-- R34, R263: a run from a state of the shape stops nowhere and ends in one. -/
theorem runSteps_inv (n : Nat) {s : State} (h : s.Inv params) : ∃ t, runSteps n s = .next t ∧ t.Inv params := by
  induction n generalizing s with
  | zero => exact ⟨s, rfl, h⟩
  | succ n ih =>
    obtain ⟨t, hstep, ht⟩ := stepKeepsReachableShape s h
    rw [runSteps_succ n hstep]
    exact ih ht

/-- Settles O53: the shape holds at reset, whatever the input and the environment, and every step keeps it. -/
theorem everyRunKeepsReachableShape : Obligations.EveryRunKeepsReachableShape :=
  fun n _ _ => runSteps_inv n (State.inv_congr rfl rfl rfl rfl rfl reachableShapeAtReset)

/-! ### The bounds of a packet -/

/-- R120, R190: a packet whose packet-ready signal a data byte's step makes is the parser's: its fields are the packet
registers' and the byte's. -/
theorem packet_of_exec_data {d : Group} {s t : State} {es : List Event} {pkt : Packet} (h : exec (.data d) s = .next t)
    (htrace : t.trace = s.trace ++ es) (hready : .packetReady pkt ∈ es) :
    s.startIndex = some pkt.startIndex ∧
      ((s.phase = .awaitCount ∧ pkt.count = d.setWidth COUNT_BITS ∧ pkt.vals = [] ∧ (pkt.kind = .set → d = 0)) ∨
        (pkt.kind = .set ∧ s.count = some pkt.count ∧ pkt.vals.length = min pkt.count.toNat params.MAX_VALUES ∧
          ∃ i, s.phase = .awaitValueHigh i)) := by
  rw [exec_data] at h
  cases hparse : parseData params (d.setWidth 8) s with
  | error f => simp [hparse, drive_error] at h
  | ok parsed =>
    obtain ⟨u, r⟩ := parsed
    rw [hparse] at h
    rcases parseData_cases hparse with ⟨rfl, -, -, -, hu⟩ | ⟨pkt', rfl, rfl, hstart, hfields⟩
    · cases h
      rcases hu with hu | hu
      · obtain rfl : es = [] := by simpa [hu] using htrace.symm
        cases hready
      · obtain rfl : es = _ := (List.append_cancel_left (hu.symm.trans htrace)).symm
        simp at hready
    · cases h
      obtain ⟨es', htrace', -, -, hmem⟩ := dispatch_packetReady_emits params pkt' s
      obtain rfl : es' = es := List.append_cancel_left (htrace'.symm.trans htrace)
      obtain rfl := (hmem pkt).1 hready
      refine ⟨hstart, hfields.imp ?_ id⟩
      rintro ⟨hphase, -, hcount, hvals, hzero⟩
      exact ⟨hphase, hcount.trans (fieldCount_data d), hvals, fun hk => (dataByte_eq_zero_iff d).1 (hzero hk)⟩

/-- Settles O34: the packet's fields are registers that R34 bounds, or the data byte itself. -/
theorem packetFieldsAndIndicesBounded : Obligations.PacketFieldsAndIndicesBounded := by
  intro d s t es pkt h hexec htrace hready
  obtain ⟨hstart, hfields⟩ := packet_of_exec_data hexec htrace hready
  have hbounds : pkt.startIndex.toNat ≤ 127 ∧ pkt.count.toNat ≤ 127 ∧
      pkt.vals.length = (if pkt.kind = .set then min pkt.count.toNat params.MAX_VALUES else 0) := by
    rcases hfields with ⟨hphase, hcount, hvals, hzero⟩ | ⟨hkind, hcount, hvals, i, hphase⟩
    · simp only [State.Inv, hphase] at h
      obtain ⟨-, -, ⟨start, hstart', hstart_le⟩, -⟩ := h
      obtain rfl : start = pkt.startIndex := Option.some.inj (hstart'.symm.trans hstart)
      refine ⟨hstart_le, hcount ▸ dataByte_toNat_le d, ?_⟩
      split
      · rename_i hkind
        simp [hvals, hcount, hzero hkind]
      · rw [hvals, List.length_nil]
    · simp only [State.Inv, hphase] at h
      obtain ⟨-, -, ⟨start, hstart', hstart_le⟩, ⟨c, hcount', hcount_le, -⟩, -⟩ := h
      obtain rfl : start = pkt.startIndex := Option.some.inj (hstart'.symm.trans hstart)
      obtain rfl : c = pkt.count := Option.some.inj (hcount'.symm.trans hcount)
      exact ⟨hstart_le, hcount_le, by rw [if_pos hkind, hvals]⟩
  obtain ⟨hstart_le, hcount_le, hlen⟩ := hbounds
  refine ⟨hstart_le, hcount_le, hlen, fun hvalid i hi => ?_⟩
  obtain ⟨-, hmax⟩ := hvalid
  omega

end Sys2Proof.Machine

/-!
The dispatch of a packet seen from outside (spec/43_command_dispatcher.md R191 to R194, spec/20_memory.md R62), and the
equality of the meanings with the spec's one function of a byte (spec/41_packet_parser.md R139, R198).
-/

namespace Sys2Proof.Machine

open Sys2Proof.Config

/-! ### What a dispatch leaves alone, and which steps act outside -/

theorem Event.isReady_of_isRouterEvent {e : Event} (h : e.isRouterEvent = true) : e.isReady = false := by
  cases e with
  | packetReady pkt => cases h
  | call c => rfl
  | tx b => rfl
  | condition c => rfl

/-- Settles O29: what the dispatch adds are router events and the bytes of a response, and it keeps the parser's frame. -/
theorem dispatchLeavesParser : Obligations.DispatchLeavesParser := by
  intro p pkt s
  obtain ⟨hinput, hphase, hkind, hstart, hcount, hvalues⟩ := dispatch_frame p pkt s
  obtain ⟨es, bytes, hrouter, -, htrace, -⟩ := dispatch_emits p pkt s
  refine ⟨es ++ bytes.map Event.tx, by rw [htrace, List.append_assoc], ?_, hphase, hkind, hstart, hcount, hvalues, hinput, ?_⟩
  · intro e he
    rcases List.mem_append.1 he with he | he
    · exact Event.isReady_of_isRouterEvent (hrouter e he)
    · obtain ⟨b, -, rfl⟩ := List.mem_map.1 he
      rfl
  · intro hquiet
    rcases dispatch_cases p pkt s with ⟨-, h⟩ | ⟨-, -, _, h, -⟩ | ⟨hvalid, hget, -⟩
    · rw [h]
      exact ⟨rfl, rfl⟩
    · rw [h]
      exact ⟨rfl, rfl⟩
    · rcases hquiet with hset | hinvalid
      · rw [hget] at hset
        cases hset
      · exact absurd hvalid hinvalid

/-- Settles O58: a step without a packet, and one whose packet has an invalid count, adds conditions and at most the
packet-ready signal. -/
theorem onlyValidPacketsActOutside : Obligations.OnlyValidPacketsActOutside := by
  intro i s t h
  rcases exec_cases h with ⟨cs, htrace, houtput, henv, hinput⟩ | ⟨d, pkt, rfl, rfl⟩
  · refine ⟨_, htrace, hinput, ?_⟩
    rintro (⟨e, he, hacts⟩ | hacts | hacts)
    · obtain ⟨c, -, rfl⟩ := List.mem_map.1 he
      simp [Event.isCall, Event.txByte] at hacts
    · exact absurd houtput hacts
    · exact absurd henv hacts
  by_cases hvalid : validCount params pkt.count
  · obtain ⟨es, htrace, -, -, hready⟩ := dispatch_packetReady_emits params pkt s
    obtain ⟨hinput, -⟩ := dispatch_frame params pkt (s.packetReady params pkt)
    exact ⟨es, htrace, hinput, fun _ => ⟨d, pkt, rfl, (hready pkt).2 rfl, hvalid⟩⟩
  · rw [dispatch_of_not_validCount hvalid]
    refine ⟨[.packetReady pkt, .condition (.malformedPacket pkt.kind pkt.startIndex pkt.count)], by simp, rfl, ?_⟩
    simp [Event.isCall, Event.txByte]

/-! ### The spec's parser as one function -/

/-- R139's handling of a marker byte before the markers are told apart is R121. -/
theorem abandonFrame_eq_reference (p : Params) (s : State) (b : Byte) :
    { (if s.phase ≠ .idle then s.raise (.frameAborted s.phase b) else s).clearPacket p with phase := .idle } =
      abandonFrame p b s := by
  by_cases hidle : s.phase = .idle <;> simp [abandonFrame, hidle]

/-- R139 on a byte with bit 7 set. -/
theorem reference_parse_marker (p : Params) (s : State) {b : Byte} (hb : b.msb = true) :
    Reference.parse p s b =
      if b = p.SET_MARKER then .ok (startFrame .set (abandonFrame p b s), none)
      else if b = p.GET_MARKER then .ok (startFrame .get (abandonFrame p b s), none)
      else parseInvalidMarker p b s := by
  rw [Reference.parse, if_pos hb, parseInvalidMarker, ← abandonFrame_eq_reference]
  rfl

/-- R131, R132 once the high group is stored: the next pair is awaited, or the packet completed. -/
def nextOrComplete (p : Params) (i : Byte) (s : State) : Parsed :=
  match s.readCount with
  | .error f => .error f
  | .ok c => if i.toNat + 1 = c.toNat then completeValues p c s else nextPair i s

theorem parseValueHigh_of_ok {p : Params} {i b : Byte} {s t : State} (h : s.storeHigh p i b = .ok t) :
    parseValueHigh p i b s = nextOrComplete p i t := by
  rw [parseValueHigh, h]
  rfl

/-- R139's reads after the high group is stored. -/
theorem nextOrComplete_eq_reference (p : Params) (i : Byte) (s : State) :
    (do
      let count ← s.readCount
      if i.toNat + 1 = count.toNat then do
        let start ← s.readStartIndex
        let vals ← s.readSlots 0 (min count.toNat p.MAX_VALUES)
        let pkt : Packet := { kind := .set, startIndex := start, count := count, vals := vals }
        .ok (s.packetReady p pkt, some pkt)
      else .ok ({ s with phase := .awaitValueLow (i + 1) }, none)) = nextOrComplete p i s := by
  rw [nextOrComplete]
  cases s.readCount with
  | error f => rfl
  | ok c =>
    simp only [bind, Except.bind, completeValues]
    cases s.readStartIndex with
    | error f => rfl
    | ok start => cases s.readSlots 0 (min c.toNat p.MAX_VALUES) <;> rfl

/-- R139 on a byte with bit 7 clear. -/
theorem reference_parse_data (p : Params) (s : State) {b : Byte} (hb : b.msb = false) :
    Reference.parse p s b = parseData p b s := by
  rw [Reference.parse, if_neg (by simp [hb]), parseData]
  cases s.phase with
  | idle => rfl
  | awaitStartIndex => rfl
  | awaitCount =>
    simp only [parseCount]
    cases s.readKind with
    | error f => rfl
    | ok k =>
      cases k with
      | get =>
        simp only [bind, Except.bind, true_or, if_true, completeAtCount]
        cases s.readStartIndex <;> rfl
      | set =>
        simp only [bind, Except.bind, reduceCtorEq, false_or, completeAtCount]
        cases s.readStartIndex <;> rfl
  | awaitValueLow i => rfl
  | awaitValueHigh i =>
    simp only
    by_cases hi : i.toNat < p.MAX_VALUES
    · cases hslot : s.slot i.toNat with
      | none =>
        rw [parseValueHigh_of_error (State.storeHigh_of_unwritten hi hslot b), if_pos hi, State.readSlot, hslot]
        rfl
      | some v =>
        rw [parseValueHigh_of_ok (State.storeHigh_of_slot hi hslot b), ← nextOrComplete_eq_reference, if_pos hi,
          (s.readSlot_ok _ v).2 hslot]
        rfl
    · rw [parseValueHigh_of_ok (State.storeHigh_past_buffer (Nat.le_of_not_lt hi) s b), ← nextOrComplete_eq_reference,
        if_neg hi]
      rfl

/-! ### The spec's step as one function -/

/-- R198 emits the values as R194 does. -/
theorem foldl_tx_pairs (vals : List Raw) (s : State) :
    vals.foldl (fun st v => (st.tx (encodeValue v.toNat).1).tx (encodeValue v.toNat).2) s = s.txAll (valuePairs vals) := by
  induction vals generalizing s with
  | nil => rfl
  | cons v vs ih =>
    rw [List.foldl_cons, ih]
    rfl

theorem reference_step_of_none {p : Params} {s t : State} {b : Byte} (h : Reference.parse p s b = .ok (t, none)) :
    Reference.step p s b = .next t := by
  simp only [Reference.step, h]

theorem reference_step_of_error {p : Params} {s : State} {b : Byte} {f : Fault} (h : Reference.parse p s b = .error f) :
    Reference.step p s b = .fault f := by
  simp only [Reference.step, h]

/-- R198's validation and loops are R191 to R194, on a packet with as many values as its count says. -/
theorem reference_step_of_packet {p : Params} {s t : State} {b : Byte} {pkt : Packet}
    (h : Reference.parse p s b = .ok (t, some pkt))
    (hlen : pkt.kind = .set → validCount p pkt.count → pkt.vals.length = pkt.count.toNat) :
    Reference.step p s b = .next (dispatch p pkt t) := by
  simp only [Reference.step, h]
  by_cases hvalid : validCount p pkt.count
  · have hcount : ¬ (pkt.count.toNat = 0 ∨ p.MAX_VALUES < pkt.count.toNat) := by
      obtain ⟨hmin, hmax⟩ := hvalid
      omega
    rw [if_neg hcount]
    cases hkind : pkt.kind with
    | set =>
      rw [if_pos rfl, dispatch_of_set hvalid hkind, dispatchSet, writeAll_eq_foldl, hlen hkind hvalid]
    | get =>
      have hloop : (List.range pkt.count.toNat).foldl
          (fun acc i => (acc.1 ++ [(routerRead p (pkt.startIndex.toNat + i) acc.2).1],
            (routerRead p (pkt.startIndex.toNat + i) acc.2).2)) ([], t) =
          readAll p pkt.startIndex.toNat pkt.count.toNat t :=
        foldl_appendRead p pkt.startIndex.toNat pkt.count.toNat ([], t)
      rw [if_neg (by simp), dispatch_of_get hvalid hkind, dispatchGet, hloop, foldl_tx_pairs]
      rfl
  · have hcount : pkt.count.toNat = 0 ∨ p.MAX_VALUES < pkt.count.toNat := by
      by_contra hcount
      exact hvalid (by constructor <;> omega)
    rw [if_pos hcount, dispatch_of_not_validCount hvalid]

/-- R120, R191: a packet of the parser with a valid count has as many values as the count says. -/
theorem vals_length_of_parseData {p : Params} {b : Byte} {s t : State} {pkt : Packet}
    (h : parseData p b s = .ok (t, some pkt)) (hkind : pkt.kind = .set) (hvalid : validCount p pkt.count) :
    pkt.vals.length = pkt.count.toNat := by
  obtain ⟨hmin, hmax⟩ := hvalid
  rcases parseData_cases h with ⟨hnone, -⟩ | ⟨pkt', hpkt, -, -, hfields⟩
  · cases hnone
  obtain rfl := Option.some.inj hpkt
  rcases hfields with ⟨-, -, hcount, -, hzero⟩ | ⟨-, -, hlen, -⟩
  · rw [hcount, hzero hkind] at hmin
    exact absurd hmin (by decide)
  · omega

/-- R198 on a data byte. -/
theorem reference_step_data (p : Params) (s : State) {b : Byte} (hb : b.msb = false) :
    Reference.step p s b = drive p (parseData p b s) := by
  have hparse := reference_parse_data p s hb
  rcases h : parseData p b s with f | ⟨t, _ | pkt⟩
  · exact reference_step_of_error (hparse.trans h)
  · exact reference_step_of_none (hparse.trans h)
  · exact reference_step_of_packet (hparse.trans h) (vals_length_of_parseData h)

/-- Settles O50: by the class of the byte, the parser and then the dispatcher are the spec's one function. -/
theorem meaningsEqualReferenceStep : Obligations.MeaningsEqualReferenceStep := by
  intro b s
  rcases hb : b.msb with _ | _
  · rw [decodeByte, decodeByteWith_of_msb_false params_valid hb, exec_data, dataByte_setWidth hb, reference_step_data _ _ hb]
  have hparse := reference_parse_marker params s hb
  rcases decodeByte_marker_cases hb with ⟨rfl, hdecode⟩ | ⟨rfl, hdecode⟩ | ⟨hset, hget, hdecode⟩
  · rw [hdecode, exec_set, reference_step_of_none (hparse.trans (if_pos rfl))]
  · obtain ⟨hne, -⟩ := markers_of_valid params_valid
    rw [hdecode, exec_get, reference_step_of_none (hparse.trans ((if_neg hne.symm).trans (if_pos rfl)))]
  · rw [hdecode, exec_invalidMarker, reference_step_of_none (hparse.trans ((if_neg hset).trans (if_neg hget)))]

end Sys2Proof.Machine

/-!
The address map and the router (spec/20_memory.md R50 to R53, spec/42_address_router.md R150 to R169): `resolve` as the
relation of R52, the writes and the reads per row, and the answers of the environment.
-/

namespace Sys2Proof.Machine

open Sys2Proof.Config

/-! ### The rows of the map -/

theorem resolve_servo {p : Params} {ch : Nat} (hch : ch < p.SERVO_COUNT) : resolve p (p.SERVO_BASE + ch) = .servo ch := by
  rw [resolve, if_pos ⟨by omega, by omega⟩, Nat.add_sub_cancel_left]

theorem resolve_relayIndex {p : Params} (hp : p.Valid) : resolve p p.RELAY_INDEX = .digitalOutput 0 := by
  have h := not_covers_of_earlier hp (p.ranges.take 1) rfl (covers_one_iff.2 rfl)
  simp only [Numbers.ranges, List.take_succ_cons, List.take_zero, List.forall_mem_cons] at h
  obtain ⟨hservo, -⟩ := h
  rw [resolve, if_neg hservo, if_pos rfl]

theorem resolve_firstDioIndex {p : Params} (hp : p.Valid) : resolve p p.DIO_INDICES.1 = .digitalIO 1 := by
  have h := not_covers_of_earlier hp (p.ranges.take 2) rfl (covers_one_iff.2 rfl)
  simp only [Numbers.ranges, List.take_succ_cons, List.take_zero, List.forall_mem_cons, covers_one_iff] at h
  obtain ⟨hservo, hrelay, -⟩ := h
  rw [resolve, if_neg hservo, if_neg hrelay, if_pos rfl]

theorem resolve_secondDioIndex {p : Params} (hp : p.Valid) : resolve p p.DIO_INDICES.2 = .digitalIO 2 := by
  have h := not_covers_of_earlier hp (p.ranges.take 3) rfl (covers_one_iff.2 rfl)
  simp only [Numbers.ranges, List.take_succ_cons, List.take_zero, List.forall_mem_cons, covers_one_iff] at h
  obtain ⟨hservo, hrelay, hdio₁, -⟩ := h
  rw [resolve, if_neg hservo, if_neg hrelay, if_neg hdio₁, if_pos rfl]

theorem resolve_touch {p : Params} (hp : p.Valid) {ch : Nat} (hch : ch < p.TOUCH_COUNT) :
    resolve p (p.TOUCH_BASE + ch) = .touch ch := by
  rw [resolve_of_touch hp ⟨by omega, by omega⟩, Nat.add_sub_cancel_left]

theorem resolve_rgb {p : Params} (hp : p.Valid) {ch : Nat} (hch : ch < p.RGB_COUNT) :
    resolve p (p.RGB_BASE + ch) = .rgb ch := by
  have hrow : Covers (p.RGB_BASE, p.RGB_COUNT) (p.RGB_BASE + ch) := ⟨by omega, by omega⟩
  have h := not_covers_of_earlier hp (p.ranges.take 7) rfl hrow
  simp only [Numbers.ranges, List.take_succ_cons, List.take_zero, List.forall_mem_cons, covers_one_iff] at h
  obtain ⟨hservo, hrelay, hdio₁, hdio₂, htouch, hcurrent, hvoltage, -⟩ := h
  rw [resolve, if_neg hservo, if_neg hrelay, if_neg hdio₁, if_neg hdio₂, if_neg htouch, if_neg hcurrent, if_neg hvoltage,
    if_pos hrow, Nat.add_sub_cancel_left]

/-- R50: outside every range, in whatever order they are tested. -/
theorem resolve_of_unmapped {p : Params} {k : Nat} (h : InRow p k .unmapped) : resolve p k = .unmapped := by
  have h : ∀ r ∈ p.ranges, ¬ Covers r k := h
  simp only [Numbers.ranges, List.forall_mem_cons, covers_one_iff] at h
  obtain ⟨hservo, hrelay, hdio₁, hdio₂, htouch, hcurrent, hvoltage, hrgb, -⟩ := h
  rw [resolve, if_neg hservo, if_neg hrelay, if_neg hdio₁, if_neg hdio₂, if_neg htouch, if_neg hcurrent, if_neg hvoltage,
    if_neg hrgb]

/-- R53: the entry `resolve` gives is a row that the index lies in. -/
theorem inRow_resolve (p : Params) (k : Nat) : InRow p k (resolve p k) := by
  unfold resolve
  split_ifs with hservo hrelay hdio₁ hdio₂ htouch hcurrent hvoltage hrgb
  · exact ⟨by omega, by omega⟩
  · exact ⟨rfl, hrelay⟩
  · exact .inl ⟨rfl, hdio₁⟩
  · exact .inr ⟨rfl, hdio₂⟩
  · exact ⟨by omega, by omega⟩
  · exact hcurrent
  · exact hvoltage
  · exact ⟨by omega, by omega⟩
  · show ∀ r ∈ p.ranges, ¬ Covers r k
    simp only [Numbers.ranges, List.forall_mem_cons, covers_one_iff]
    exact ⟨hservo, hrelay, hdio₁, hdio₂, htouch, hcurrent, hvoltage, hrgb, List.forall_mem_nil _⟩

/-- Settles O32: the entry of `resolve` is a row of the index, and under R9 each row's indices are resolved to it. -/
theorem resolveIsTheRow : Obligations.ResolveIsTheRow := by
  refine fun p hp k e => ⟨fun h => h ▸ inRow_resolve p k, fun h => ?_⟩
  cases e with
  | servo ch =>
    obtain ⟨hch, rfl⟩ := h
    exact resolve_servo hch
  | digitalOutput ch =>
    obtain ⟨rfl, rfl⟩ := h
    exact resolve_relayIndex hp
  | digitalIO ch =>
    rcases h with ⟨rfl, rfl⟩ | ⟨rfl, rfl⟩
    · exact resolve_firstDioIndex hp
    · exact resolve_secondDioIndex hp
  | touch ch =>
    obtain ⟨hch, rfl⟩ := h
    exact resolve_touch hp hch
  | current =>
    obtain rfl : k = p.CURRENT_INDEX := h
    exact resolve_currentIndex hp
  | voltage =>
    obtain rfl : k = p.VOLTAGE_INDEX := h
    exact resolve_voltageIndex hp
  | rgb ch =>
    obtain ⟨hch, rfl⟩ := h
    exact resolve_rgb hp hch
  | unmapped => exact resolve_of_unmapped h

theorem le_foldl_max {l : List Nat} {x : Nat} (hx : x ∈ l) (a : Nat) : x ≤ l.foldl max a := by
  have hinit : ∀ (l : List Nat) (a : Nat), a ≤ l.foldl max a := fun l => by
    induction l with
    | nil => exact fun a => Nat.le_refl a
    | cons y ys ih => exact fun a => (Nat.le_max_left a y).trans (ih _)
  induction l generalizing a with
  | nil => cases hx
  | cons y ys ih =>
    rcases List.mem_cons.1 hx with rfl | hx
    · exact (Nat.le_max_right a x).trans (hinit ys _)
    · exact ih hx _

/-- R50: `ADDR_COUNT` covers every range. -/
theorem range_end_le_addrCount {p : Params} {r : Nat × Nat} (hr : r ∈ p.ranges) : r.1 + r.2 ≤ p.ADDR_COUNT :=
  le_foldl_max (List.mem_map_of_mem (f := fun r => r.1 + r.2) hr) 0

/-- Settles O33: such an index is above the end of every range. -/
theorem beyondMapIsUnmapped : Obligations.BeyondMapIsUnmapped := by
  refine fun p k hk => resolve_of_unmapped fun r hr hcovers => ?_
  have := range_end_le_addrCount hr
  omega

/-! ### Writes -/

/-- Settles O35: a servo index is resolved to its channel, and the clamp has three cases. -/
theorem servoWriteClamps : Obligations.ServoWriteClamps := by
  intro p hp ch v s hch
  obtain ⟨-, hbounds, -⟩ := hp
  refine ⟨clamp v.toNat p.SERVO_MIN_US p.SERVO_MAX_US, ?_, ?_⟩
  · simp only [routerWrite, resolve_servo hch, writeServo]
    rfl
  · unfold clamp
    omega

/-- R152, R153: the level of a write, as a decided proposition. -/
theorem bne_zero_eq_decide (v : Raw) : (v != 0) = decide (v ≠ 0) := by
  rw [Bool.eq_iff_iff, bne_iff_ne, decide_eq_true_iff]

/-- Settles O36: the relay's index is resolved to channel 0. -/
theorem relayWriteDrivesLevel : Obligations.RelayWriteDrivesLevel := by
  intro p hp v s
  simp only [routerWrite, resolve_relayIndex hp, writeRelay, bne_zero_eq_decide]
  rfl

/-- Settles O37: the two indices are resolved to channels 1 and 2. -/
theorem digitalIOWriteDrivesLevel : Obligations.DigitalIOWriteDrivesLevel := by
  intro p hp v s
  simp only [routerWrite, resolve_firstDioIndex hp, resolve_secondDioIndex hp, writeDigitalIO, bne_zero_eq_decide]
  exact ⟨rfl, rfl⟩

/-- R154 at the default shift: a nibble times 16. -/
theorem rgbChannel_toNat (v : Raw) (lo : Nat) : (rgbChannel params v lo).toNat = v.toNat / 2 ^ lo % 16 * 16 := by
  have hshift : params.RGB_NIBBLE_SHIFT = 4 := rfl
  have hnibble : v.toNat / 2 ^ lo % 16 < 16 := Nat.mod_lt _ (by decide)
  rw [rgbChannel, hshift, BitVec.toNat_shiftLeft, BitVec.toNat_setWidth, BitVec.extractLsb'_toNat,
    Nat.shiftRight_eq_div_pow, Nat.shiftLeft_eq]
  omega

/-- Settles O38: the three nibbles start at bits 8, 4 and 0. -/
theorem rgbWriteSplitsNibbles : Obligations.RgbWriteSplitsNibbles := by
  intro ch v s hch
  refine ⟨rgbChannel params v 8, rgbChannel params v 4, rgbChannel params v 0, ?_, rgbChannel_toNat v 8,
    rgbChannel_toNat v 4, ?_⟩
  · simp only [routerWrite, resolve_rgb params_valid hch, writeRgb]
    rfl
  · rw [rgbChannel_toNat, Nat.pow_zero, Nat.div_one]

/-- Settles O40: an unmapped index only records its miss. -/
theorem unmappedIndexIsInert : Obligations.UnmappedIndexIsInert := by
  intro p _ k v s hk
  simp only [routerWrite, routerRead, resolve_of_unmapped hk]
  exact ⟨rfl, rfl⟩

/-! ### Reads -/

/-- Settles O41: an RGB index only records the read. -/
theorem rgbReadsZero : Obligations.RgbReadsZero := by
  intro p hp ch s hch
  simp only [routerRead, resolve_rgb hp hch]
  rfl

section

variable {α : Type} (k : Nat) (conv : α → Raw) (c : CapCall) (env : Environment) (s : State)

/-- R160 to R164: a read that is answered. -/
theorem answered_ok_readCall (x : α) :
    answered k conv (.ok x) (s.readCall c env) = (conv x, { s with env := env, trace := s.trace ++ [.call c] }) :=
  rfl

/-- R167: a read that fails. -/
theorem answered_fail_readCall :
    answered k conv .fail (s.readCall c env) =
      (0, { s with env := env, trace := s.trace ++ [.call c, .condition (.peripheralFailure k)] }) := by
  rw [answered, readFailure]
  exact congrArg (Prod.mk 0) (State.ext_fields rfl rfl rfl rfl rfl rfl rfl rfl (by simp))

end

/-- R160, R169: an answer is a natural, reduced as one. -/
theorem wrap14_natCast (n : Nat) : wrap14 n = BitVec.ofNat VALUE_BITS n :=
  BitVec.ofInt_natCast VALUE_BITS n

/-- Settles O42: by the answer. -/
theorem servoReadReducesAnswer : Obligations.ServoReadReducesAnswer := by
  intro p _ ch s a hch ha
  simp only [routerRead, resolve_servo hch, readServo, ← ha]
  cases a with
  | ok us => rw [answered_ok_readCall, wrap14_natCast]
  | fail => rw [answered_fail_readCall]

/-- R161: both kinds of digital entry are read alike. -/
theorem routerRead_digital {p : Params} {k ch : Nat} (h : resolve p k = .digitalOutput ch ∨ resolve p k = .digitalIO ch)
    (s : State) : routerRead p k s = readDigital k ch s := by
  rcases h with h | h <;> simp only [routerRead, h]

/-- Settles O43: the three indices are read alike, by the answer. -/
theorem digitalReadGivesLevel : Obligations.DigitalReadGivesLevel := by
  intro p hp k ch s a hk ha
  have hresolve : resolve p k = .digitalOutput ch ∨ resolve p k = .digitalIO ch := by
    rcases hk with ⟨rfl, rfl⟩ | ⟨rfl, rfl⟩ | ⟨rfl, rfl⟩
    · exact .inl (resolve_relayIndex hp)
    · exact .inr (resolve_firstDioIndex hp)
    · exact .inr (resolve_secondDioIndex hp)
  rw [routerRead_digital hresolve, readDigital, ← ha]
  cases a with
  | ok level => cases level <;> rfl
  | fail => rw [answered_fail_readCall]

/-- Settles O44: by the answer. -/
theorem touchReadConverts : Obligations.TouchReadConverts := by
  intro p hp ch s a hch ha
  simp only [routerRead, resolve_touch hp hch, readTouch, ← ha]
  cases a with
  | ok volts => rw [answered_ok_readCall]
  | fail => rw [answered_fail_readCall]

/-- Settles O45: by the answer. -/
theorem currentReadConverts : Obligations.CurrentReadConverts := by
  intro p hp s a ha
  simp only [routerRead, resolve_currentIndex hp, readCurrent, ← ha]
  cases a with
  | ok amps => rw [answered_ok_readCall]
  | fail => rw [answered_fail_readCall]

/-- Settles O46: by the answer. -/
theorem voltageReadConverts : Obligations.VoltageReadConverts := by
  intro p hp s a ha
  simp only [routerRead, resolve_voltageIndex hp, readVoltage, ← ha]
  cases a with
  | ok volts => rw [answered_ok_readCall]
  | fail => rw [answered_fail_readCall]

/-! ### The answers of the environment -/

/-- Settles O47: each interface by its own queue, nonempty or empty. -/
theorem environmentAnswersInOrder : Obligations.EnvironmentAnswersInOrder := by
  rintro ⟨servo, digital, touch, current, voltage, draws⟩
  exact ⟨fun _ _ h => by cases h; exact ⟨rfl, rfl⟩, fun h => by cases h; exact ⟨rfl, rfl⟩,
    fun _ _ h => by cases h; exact ⟨rfl, rfl⟩, fun h => by cases h; exact ⟨rfl, rfl⟩,
    fun _ _ h => by cases h; exact ⟨rfl, rfl⟩, fun h => by cases h; exact ⟨rfl, rfl⟩,
    fun _ _ h => by cases h; exact ⟨rfl, rfl⟩, fun h => by cases h; exact ⟨rfl, rfl⟩,
    fun _ _ h => by cases h; exact ⟨rfl, rfl⟩, fun h => by cases h; exact ⟨rfl, rfl⟩⟩

/-- Settles O48: the first read drops the first answer, the write leaves the queue alone, the second read takes the next. -/
theorem readsAreNotCached : Obligations.ReadsAreNotCached := by
  intro p hp ch v s x y rest hch hqueue
  obtain ⟨hservo, -⟩ := environmentAnswersInOrder s.env
  obtain ⟨hnext, hdrop⟩ := hservo _ _ hqueue
  have hfirst := servoReadReducesAnswer p hp ch s (.ok x) hch hnext.symm
  refine ⟨by rw [hfirst], ?_⟩
  obtain ⟨e, -, hwrite⟩ := routerWrite_spec p (p.SERVO_BASE + ch) v
  rw [hfirst, hdrop, hwrite, servoReadReducesAnswer p hp ch _ (.ok y) hch rfl]

end Sys2Proof.Machine

/-!
The sensor conversions (spec/42_address_router.md R168, R169): the machine's rounding of a quotient of integers is R168's
rounding of the rational, and the operands of the two reference conversions are R168's rationals as quotients.
-/

namespace Sys2Proof.Machine

open Sys2Proof.Config

/-- R10: `wrap14` is mod 2^14, of a negative number too. -/
theorem wrap14_toNat (z : Int) : ((wrap14 z).toNat : Int) = z % 16384 := by
  rw [wrap14, BitVec.toNat_ofInt]
  exact Int.toNat_of_nonneg (Int.emod_nonneg z (by decide))

/-- A rational has the sign of the numerator of any quotient that gives it. -/
theorem sign_num_intCast_div (n : Int) {d : Nat} (hd : 0 < d) : ((n : Rat) / d).num.sign = n.sign := by
  have hd' : (0 : Rat) < d := Nat.cast_pos.2 hd
  rcases lt_trichotomy n 0 with hn | rfl | hn
  · have hneg : (n : Rat) / d < 0 := div_neg_of_neg_of_pos (Int.cast_lt_zero.2 hn) hd'
    rw [Int.sign_eq_neg_one_of_neg hn, Int.sign_eq_neg_one_of_neg (Rat.num_neg.2 hneg)]
  · simp
  · have hpos : (0 : Rat) < n / d := div_pos (Int.cast_pos.2 hn) hd'
    rw [Int.sign_eq_one_of_pos hn, Int.sign_eq_one_of_pos (Rat.num_pos.2 hpos)]

/-- R168: rounding the quotient of integers is rounding the rational. -/
theorem roundQuotient_eq_roundHalfAway (n : Int) (d : Nat) : roundQuotient n d = roundHalfAway (n / d) := by
  rcases Nat.eq_zero_or_pos d with rfl | hd
  · simp [roundQuotient, roundHalfAway]
  have hhalf : |(n : Rat) / d| + 1 / 2 = ((2 * n.natAbs + d : Nat) : Rat) / (2 * d : Nat) := by
    rw [abs_div, Nat.abs_cast]
    push_cast [Nat.cast_natAbs]
    field_simp
  have hfloor : (((2 * n.natAbs + d : Nat) : Rat) / (2 * d : Nat)).floor = ((2 * n.natAbs + d) / (2 * d) : Nat) :=
    Rat.floor_natCast_div_natCast _ _
  rw [roundQuotient, roundHalfAway, sign_num_intCast_div n hd, hhalf, hfloor]

/-- R168 `convTouch`, `convVolt`: the product as a quotient of integers. -/
theorem mul_eq_intCast_div (v scale : Rat) :
    v * scale = ((v.num * scale.num : Int) : Rat) / ((v.den * scale.den : Nat) : Rat) := by
  push_cast
  rw [mul_div_mul_comm, Rat.num_div_den, Rat.num_div_den]

/-- R168 `convCurrent`: the quotient of rationals as a quotient of integers. -/
theorem div_eq_intCast_div (a lsb : Rat) :
    a / lsb = ((a.num * lsb.num.sign * lsb.den : Int) : Rat) / ((a.den * lsb.num.natAbs : Nat) : Rat) := by
  rcases eq_or_ne lsb 0 with rfl | hlsb
  · simp
  have hnum : lsb.num ≠ 0 := Rat.num_ne_zero.2 hlsb
  have hsign : (lsb.num.sign : Rat) ≠ 0 := Int.cast_ne_zero.2 (mt Int.sign_eq_zero_iff_zero.1 hnum)
  have habs : (lsb.num.natAbs : Rat) = lsb.num.sign * lsb.num := by
    rw [← Int.cast_natCast, ← Int.sign_mul_self_eq_natAbs, Int.cast_mul]
  calc a / lsb = (a.num / a.den) / (lsb.num / lsb.den) := by rw [Rat.num_div_den, Rat.num_div_den]
    _ = a.num * lsb.num.sign * lsb.den / (a.den * (lsb.num.sign * lsb.num)) := by field_simp
    _ = _ := by rw [← habs]; push_cast; ring

theorem referenceVolts_eq (scale v : Rat) : referenceVolts scale v = wrap14 (roundHalfAway (v * scale)) := by
  rw [referenceVolts, roundQuotient_eq_roundHalfAway, ← mul_eq_intCast_div]

theorem referenceAmps_eq (lsb a : Rat) (offset : Nat) :
    referenceAmps lsb offset a = wrap14 (roundHalfAway (a / lsb) + offset) := by
  rw [referenceAmps, roundQuotient_eq_roundHalfAway, ← div_eq_intCast_div]

/-- Settles O49: the reference conversions for every scale, and then with R8's constants. -/
theorem conversionsAreRationalFormulas : Obligations.ConversionsAreRationalFormulas := by
  obtain ⟨htouch, hvolt⟩ := defaultVoltScale_eq
  refine ⟨wrap14_toNat, referenceVolts_eq, referenceAmps_eq, fun v => ?_, fun v => ?_, fun a => ?_⟩
  · rw [← htouch]
    exact referenceVolts_eq _ v
  · rw [← hvolt]
    exact referenceVolts_eq _ v
  · rw [← defaultCurrentLsb_eq]
    exact referenceAmps_eq _ a 512

end Sys2Proof.Machine

/-!
Whole frames (spec/30_encoding.md R72, R73, R77, spec/41_packet_parser.md R133, R137, spec/70_reset_and_hazards.md R259):
the runs of steps that a GET frame, a SET frame, a response fed back and a stream of data bytes take.
-/

namespace Sys2Proof.Machine

open Sys2Proof.Config

/-! ### One step on a byte of known class -/

theorem step_setMarker {s : State} {rest : List Input} (h : s.input = .byte params.SET_MARKER :: rest) :
    step s = exec .set (s.setInput rest) := by
  rw [step_of_byte h, decodeByte, decodeByteWith_setMarker]

theorem step_getMarker {s : State} {rest : List Input} (h : s.input = .byte params.GET_MARKER :: rest) :
    step s = exec .get (s.setInput rest) := by
  rw [step_of_byte h, decodeByte, decodeByteWith_getMarker params_valid]

theorem step_dataByte {s : State} {d : Group} {rest : List Input} (h : s.input = .byte (d.setWidth 8) :: rest) :
    step s = exec (.data d) (s.setInput rest) := by
  rw [step_of_byte h, decodeByte, decodeByteWith_dataByte params_valid]

theorem runSteps_dataByte (n : Nat) {s t : State} {d : Group} {rest : List Input}
    (hinput : s.input = .byte (d.setWidth 8) :: rest) (hexec : exec (.data d) (s.setInput rest) = .next t) :
    runSteps (n + 1) s = runSteps n t :=
  runSteps_succ n ((step_dataByte hinput).trans hexec)

/-! ### Data bytes in `Idle` -/

/-- Settles O57: by induction on the bytes, each discarded in a step of its own. -/
theorem noMarkerNoPacket : Obligations.NoMarkerNoPacket := by
  intro s ds rest hphase hinput
  induction ds generalizing s with
  | nil =>
    rw [List.map_nil, List.nil_append] at hinput
    subst hinput
    simp [runSteps]
  | cons d ds ih =>
    rw [List.length_cons, runSteps_dataByte _ hinput (strayDataIsDiscarded d _ hphase)]
    refine Eq.trans (ih _ hphase rfl) ?_
    simp

/-! ### GET frames and responses -/

/-- Settles O55: the marker, the index field and the count field each take one step. -/
theorem getFrameRunsToDispatch : Obligations.GetFrameRunsToDispatch := by
  rintro s start c rest hinput pkt rfl
  have hmarker := (step_getMarker hinput).trans (getMarkerStartsGetFrame _)
  rw [runSteps_succ 2 hmarker]
  refine Eq.trans (runSteps_dataByte 1 rfl (startIndexIsStored start _ rfl)) ?_
  exact runSteps_dataByte 0 rfl (getCompletesAtCount c _ _ rfl rfl rfl)

/-- R74, R194: a response is a GET frame followed by its value pairs. -/
theorem respFrame_eq_append (p : Params) (start c : Group) (vals : List Raw) :
    respFrame p (start.setWidth INDEX_BITS) (c.setWidth COUNT_BITS) vals = getFrame p start c ++ valuePairs vals := by
  simp [respFrame, getFrame]

/-- R105: the value pairs of a frame are the bytes of payloads. -/
theorem exists_payloads_valuePairs (vals : List Raw) :
    ∃ ds : List Group, ds.map (fun d => d.setWidth 8) = valuePairs vals ∧ ds.length = 2 * vals.length := by
  refine ⟨(valuePairs vals).map fun b => b.setWidth PAYLOAD_BITS, ?_, by rw [List.length_map, length_valuePairs]⟩
  rw [List.map_map]
  exact (List.map_congr_left fun b hb => dataByte_setWidth (msb_of_mem_valuePairs hb)).trans (List.map_id _)

/-- R137, R105: in `Idle` value pairs are stray bytes. -/
theorem runSteps_valuePairs_of_idle {s : State} {vals : List Raw} {rest : List Input} (hphase : s.phase = .idle)
    (hinput : s.input = (valuePairs vals).map Input.byte ++ rest) :
    runSteps (2 * vals.length) s = .next
      { s with
        input := rest,
        trace := s.trace ++ (valuePairs vals).map fun b => Event.condition (.strayData b) } := by
  obtain ⟨ds, hds, hlen⟩ := exists_payloads_valuePairs vals
  rw [← hds, List.map_map] at hinput
  rw [← hlen, noMarkerNoPacket s ds rest hphase hinput, ← hds, List.map_map]
  rfl

/-- Settles O56: the response is a GET frame, after whose dispatch the parser is in `Idle` and the pairs are stray bytes. -/
theorem responseLoopsBackAsGet : Obligations.ResponseLoopsBackAsGet := by
  intro s start c vals rest hphase hinput pkt hpkt
  rw [respFrame_eq_append, List.map_append, List.append_assoc] at hinput
  have hget := getFrameRunsToDispatch s start c _ hinput pkt hpkt
  rw [hphase, abortEvents, if_pos rfl, List.append_nil, ← hphase] at hget
  refine ⟨_, _, rfl, ?_, rfl⟩
  rw [runSteps_add _ hget]
  obtain ⟨hinput', hphase', -⟩ := dispatch_frame params pkt _
  exact runSteps_valuePairs_of_idle (hphase'.trans hphase) hinput'

/-! ### SET frames -/

/-- R54: the payloads of a value's two bytes. -/
def lowPayload (v : Raw) : Group := (encodeValue v.toNat).1.setWidth PAYLOAD_BITS

def highPayload (v : Raw) : Group := (encodeValue v.toNat).2.setWidth PAYLOAD_BITS

theorem lowPayload_byte (v : Raw) : (lowPayload v).setWidth 8 = (encodeValue v.toNat).1 :=
  dataByte_setWidth (msb_encodeValue v.toNat).1

theorem highPayload_byte (v : Raw) : (highPayload v).setWidth 8 = (encodeValue v.toNat).2 :=
  dataByte_setWidth (msb_encodeValue v.toNat).2

/-- R102, R104: the high payload ORed into the low one is the value. -/
theorem payloads_value (v : Raw) :
    (lowPayload v).setWidth VALUE_BITS ||| ((highPayload v).setWidth VALUE_BITS <<< PAYLOAD_BITS) = v := by
  rw [← lowGroup_data, ← orHighGroup_data, lowPayload_byte, highPayload_byte]
  exact decodeValue_encodeValue v

theorem valuePairs_cons (v : Raw) (vs : List Raw) :
    valuePairs (v :: vs) = (lowPayload v).setWidth 8 :: (highPayload v).setWidth 8 :: valuePairs vs := by
  rw [lowPayload_byte, highPayload_byte, valuePairs]

/-- R27, R34: the value buffer after `i` values of a frame. -/
def slotsAfter (vals : List Raw) (i : Nat) : List (Option Raw) :=
  (List.range params.MAX_VALUES).map fun j => if j < i then vals[j]? else none

theorem length_slotsAfter (vals : List Raw) (i : Nat) : (slotsAfter vals i).length = params.MAX_VALUES := by
  rw [slotsAfter, List.length_map, List.length_range]

theorem slotsAfter_zero (vals : List Raw) : slotsAfter vals 0 = List.replicate params.MAX_VALUES none := by
  simp [slotsAfter]

theorem getElem?_slotsAfter {vals : List Raw} {i j : Nat} (hj : j < params.MAX_VALUES) (hji : j < i) :
    (slotsAfter vals i)[j]? = some vals[j]? := by
  simp [slotsAfter, hj, hji]

/-- R133: storing the next value, where it is past the buffer or in it. -/
theorem slotsAfter_succ {vals : List Raw} {i : Nat} (hi : i < vals.length) :
    slotsAfter vals (i + 1) = (slotsAfter vals i).set i (some vals[i]) := by
  refine List.ext_getElem (by simp [length_slotsAfter]) fun j _ _ => ?_
  rw [List.getElem_set]
  by_cases hji : i = j
  · subst hji
    simp [slotsAfter, hi]
  · rw [if_neg hji]
    simp only [slotsAfter, List.getElem_map, List.getElem_range]
    simp only [show j < i + 1 ↔ j < i by omega]

/-- R33, R77: the parser in a SET frame that starts at `start`, before the low group of value `i`. -/
def beforeValue (s : State) (start : Index) (vals : List Raw) (rest : List Input) (i : Nat) : State :=
  { s with
    phase := .awaitValueLow (BitVec.ofNat 8 i), kind := some .set, startIndex := some start,
    count := some (BitVec.ofNat COUNT_BITS vals.length), values := slotsAfter vals i,
    input := (valuePairs (vals.drop i)).map Input.byte ++ rest }

/-- Between the two groups of value `v`, the `i`-th, of such a frame. -/
def withinValue (s : State) (start : Index) (vals : List Raw) (rest : List Input) (i : Nat) (v : Raw) : State :=
  { beforeValue s start vals rest i with
    phase := .awaitValueHigh (BitVec.ofNat 8 i),
    values := (slotsAfter vals i).set i (some ((lowPayload v).setWidth VALUE_BITS)),
    input := .byte ((highPayload v).setWidth 8) :: ((valuePairs (vals.drop (i + 1))).map Input.byte ++ rest) }

theorem toNat_ofNat_of_le {n : Nat} (hn : n ≤ 127) : (BitVec.ofNat 8 n).toNat = n :=
  (BitVec.toNat_ofNat n 8).trans (Nat.mod_eq_of_lt (by omega))

/-- R133: a slot past the buffer is not stored. -/
theorem set_of_lt_maxValues {l : List (Option Raw)} (hl : l.length = params.MAX_VALUES) (i : Nat) (v : Option Raw) :
    (if i < params.MAX_VALUES then l.set i v else l) = l.set i v := by
  split
  · rfl
  · exact (List.set_eq_of_length_le (by omega)).symm

/-- R24, R28: the slots below the next one hold the frame's values, and the next one the low group it has. -/
theorem slot_withinValue (s : State) (start : Index) (vals : List Raw) (rest : List Input) {i j : Nat} (v : Raw)
    (hj : j < params.MAX_VALUES) (hji : j ≤ i) :
    (withinValue s start vals rest i v).slot j =
      if j = i then some ((lowPayload v).setWidth VALUE_BITS) else vals[j]? := by
  unfold State.slot withinValue
  by_cases h : j = i
  · subst h
    simp [length_slotsAfter, hj]
  · rw [if_neg h, List.getElem?_set_ne (Ne.symm h), getElem?_slotsAfter hj (by omega)]
    rfl

/-- The first `m` values, by their index. -/
theorem take_eq_map_getD (vals : List Raw) (m : Nat) :
    vals.take m = (List.range (min vals.length m)).map fun j => vals.getD j 0 := by
  refine List.ext_getElem (by simp [Nat.min_comm]) fun j hj _ => ?_
  have hlt : j < vals.length := by
    rw [List.length_take] at hj
    omega
  simp [hlt]

section

variable {s : State} {start : Index} {vals : List Raw} {rest : List Input} {i : Nat} (hi : i < vals.length)
  (hlen : vals.length ≤ 127)
include hlen

/-- R130 within a SET frame. -/
theorem runSteps_lowGroup (n : Nat) :
    runSteps (n + 1) (beforeValue s start vals rest i) = runSteps n (withinValue s start vals rest i vals[i]) := by
  have hinput : (beforeValue s start vals rest i).input = .byte ((lowPayload vals[i]).setWidth 8) ::
      .byte ((highPayload vals[i]).setWidth 8) :: ((valuePairs (vals.drop (i + 1))).map Input.byte ++ rest) := by
    rw [beforeValue, List.drop_eq_getElem_cons hi, valuePairs_cons]
    rfl
  refine Eq.trans (runSteps_dataByte n hinput (lowGroupIsStored _ _ (BitVec.ofNat 8 i) rfl)) (congrArg _ ?_)
  rw [toNat_ofNat_of_le (by omega)]
  exact State.ext_fields rfl rfl rfl rfl (set_of_lt_maxValues (length_slotsAfter vals i) i _) rfl rfl rfl rfl

/-- R131 within a SET frame. -/
theorem runSteps_highGroup (hnext : i + 1 < vals.length) (n : Nat) :
    runSteps (n + 1) (withinValue s start vals rest i vals[i]) = runSteps n (beforeValue s start vals rest (i + 1)) := by
  have hnat : (BitVec.ofNat 8 i).toNat = i := toNat_ofNat_of_le (by omega)
  have hcount : (BitVec.ofNat COUNT_BITS vals.length).toNat = vals.length := toNat_ofNat_of_le hlen
  have hphase : BitVec.ofNat 8 i + 1 = BitVec.ofNat 8 (i + 1) := (BitVec.ofNat_add i 1).symm
  obtain ⟨hstores, hdiscards⟩ := highGroupContinuesFrame (highPayload vals[i])
    ((withinValue s start vals rest i vals[i]).setInput ((valuePairs (vals.drop (i + 1))).map Input.byte ++ rest))
    (BitVec.ofNat 8 i) (BitVec.ofNat COUNT_BITS vals.length) rfl rfl (by rwa [hnat, hcount])
  rw [hnat] at hstores hdiscards
  by_cases hbuffer : i < params.MAX_VALUES
  · have hslot := (slot_withinValue s start vals rest vals[i] hbuffer (Nat.le_refl i)).trans (if_pos rfl)
    refine Eq.trans (runSteps_dataByte n rfl (hstores _ hbuffer hslot)) (congrArg _ ?_)
    refine State.ext_fields (congrArg Phase.awaitValueLow hphase) rfl rfl rfl ?_ rfl rfl rfl rfl
    simp only [withinValue, beforeValue, State.setInput_values, List.set_set, payloads_value, slotsAfter_succ hi]
  · refine Eq.trans (runSteps_dataByte n rfl (hdiscards (Nat.le_of_not_lt hbuffer))) (congrArg _ ?_)
    refine State.ext_fields (congrArg Phase.awaitValueLow hphase) rfl rfl rfl ?_ rfl rfl rfl rfl
    have hpast : (slotsAfter vals i).length ≤ i := by rw [length_slotsAfter]; omega
    simp only [withinValue, beforeValue, State.setInput_values, slotsAfter_succ hi, List.set_eq_of_length_le hpast]

/-- R132 within a SET frame: the packet has the first `MAX_VALUES` values. -/
theorem runSteps_lastHighGroup (hlast : i + 1 = vals.length) {pkt : Packet}
    (hpkt : pkt = { kind := .set, startIndex := start, count := BitVec.ofNat COUNT_BITS vals.length,
                    vals := vals.take params.MAX_VALUES }) :
    runSteps 1 (withinValue s start vals rest i vals[i]) = .next (dispatch params pkt
      { s with
        phase := .idle, kind := none, startIndex := none, count := none,
        values := List.replicate params.MAX_VALUES none, input := rest,
        trace := s.trace ++ [.packetReady pkt] }) := by
  have hnat : (BitVec.ofNat 8 i).toNat = i := toNat_ofNat_of_le (by omega)
  have hcount : (BitVec.ofNat COUNT_BITS vals.length).toNat = vals.length := toNat_ofNat_of_le hlen
  have hinput : (withinValue s start vals rest i vals[i]).input = .byte ((highPayload vals[i]).setWidth 8) :: rest := by
    rw [withinValue, hlast, List.drop_length]
    rfl
  have hslots : ∀ j, j < min (BitVec.ofNat COUNT_BITS vals.length).toNat params.MAX_VALUES →
      (withinValue s start vals rest i vals[i]).slot j =
        some (if j = i then (lowPayload vals[i]).setWidth VALUE_BITS else vals.getD j 0) := fun j hj => by
    rw [hcount] at hj
    rw [slot_withinValue s start vals rest vals[i] (by omega) (by omega)]
    split
    · rfl
    · rw [List.getD_eq_getElem?_getD, List.getElem?_eq_getElem (by omega), Option.getD_some]
  have hvals : vals.take params.MAX_VALUES =
      (List.range (min vals.length params.MAX_VALUES)).map fun j =>
        if j = i then (if j = i then (lowPayload vals[i]).setWidth VALUE_BITS else vals.getD j 0) |||
          ((highPayload vals[i]).setWidth VALUE_BITS <<< PAYLOAD_BITS)
        else if j = i then (lowPayload vals[i]).setWidth VALUE_BITS else vals.getD j 0 := by
    rw [take_eq_map_getD]
    refine List.map_congr_left fun j _ => ?_
    by_cases hji : j = i
    · subst hji
      simp [payloads_value, hi]
    · simp only [if_neg hji]
  refine runSteps_dataByte 0 hinput (lastHighGroupCompletesSet _ ((withinValue s start vals rest i vals[i]).setInput rest)
    (BitVec.ofNat 8 i) _ start _ rfl rfl rfl (by rw [hnat, hcount, hlast]) hslots pkt ?_)
  rw [hpkt, hnat, hcount, hvals]

end

/-- R77, R133: from the first low group on, the values that have others after them. -/
theorem runSteps_values {s : State} {start : Index} {vals : List Raw} {rest : List Input} (hlen : vals.length ≤ 127) {k : Nat}
    (hk : k < vals.length) :
    runSteps (2 * k) (beforeValue s start vals rest 0) = .next (beforeValue s start vals rest k) := by
  induction k with
  | zero => rfl
  | succ k ih =>
    rw [Nat.mul_succ, runSteps_add 2 (ih (by omega)), runSteps_lowGroup (by omega) hlen, runSteps_highGroup (by omega) hlen hk]
    rfl

/-- R72, R133: from the first low group on, all values of a frame that has some. -/
theorem runSteps_allValues {s : State} {start : Index} {vals : List Raw} {rest : List Input} (hlen : vals.length ≤ 127)
    (hpos : 0 < vals.length) {pkt : Packet}
    (hpkt : pkt = { kind := .set, startIndex := start, count := BitVec.ofNat COUNT_BITS vals.length,
                    vals := vals.take params.MAX_VALUES }) :
    runSteps (2 * vals.length) (beforeValue s start vals rest 0) = .next (dispatch params pkt
      { s with
        phase := .idle, kind := none, startIndex := none, count := none,
        values := List.replicate params.MAX_VALUES none, input := rest,
        trace := s.trace ++ [.packetReady pkt] }) := by
  have hlast : vals.length - 1 + 1 = vals.length := by omega
  rw [show 2 * vals.length = 2 * (vals.length - 1) + 2 by omega, runSteps_add 2 (runSteps_values hlen (by omega)),
    runSteps_lowGroup (by omega) hlen, runSteps_lastHighGroup (by omega) hlen hlast hpkt]

/-- R72: a frame's count field is a data byte. -/
theorem countField_eq_dataByte {n : Nat} (hn : n ≤ 127) :
    BitVec.ofNat COUNT_BITS n = ((BitVec.ofNat PAYLOAD_BITS n).setWidth 8 : Byte) := by
  apply BitVec.eq_of_toNat_eq
  simp only [BitVec.toNat_setWidth, BitVec.toNat_ofNat, PAYLOAD_BITS, COUNT_BITS]
  omega

/-- Settles O54: after the marker and the two fields, a frame without values is complete, and any other goes on to them. -/
theorem setFrameRunsToDispatch : Obligations.SetFrameRunsToDispatch := by
  intro s start vals rest hlen hinput pkt hpkt
  have hcount := countField_eq_dataByte hlen
  rw [setFrame, hcount] at hinput
  have hmarker := (step_setMarker hinput).trans (setMarkerStartsSetFrame _)
  rw [show 3 + 2 * vals.length = 2 * vals.length + 1 + 1 + 1 by omega, runSteps_succ _ hmarker]
  refine Eq.trans (runSteps_dataByte _ rfl (startIndexIsStored start _ rfl)) ?_
  rcases Nat.eq_zero_or_pos vals.length with hzero | hpos
  · obtain rfl := List.length_eq_zero_iff.1 hzero
    have hinvalid : ¬ validCount params (BitVec.ofNat COUNT_BITS 0) := by decide
    refine Eq.trans (runSteps_dataByte 0 (d := 0) rfl (zeroCountSetCompletesAndDrops _ _ rfl rfl rfl)) ?_
    rw [hpkt, dispatch_of_not_validCount hinvalid]
    exact congrArg _ (State.ext_fields rfl rfl rfl rfl rfl rfl rfl rfl (by simp))
  · have hne : BitVec.ofNat PAYLOAD_BITS vals.length ≠ 0 := fun h => by
      have := congrArg BitVec.toNat h
      simp at this
      omega
    refine Eq.trans (runSteps_dataByte _ rfl (setCountBeginsValues _ _ hne rfl rfl)) ?_
    refine Eq.trans (congrArg _ ?_)
      (runSteps_allValues (s := { s with trace := s.trace ++ abortEvents s.phase params.SET_MARKER }) hlen hpos hpkt)
    exact State.ext_fields rfl rfl rfl (congrArg some hcount.symm) (slotsAfter_zero vals).symm rfl rfl rfl rfl

end Sys2Proof.Machine
